-- ==== Sys2Proof/Word.lean ====
section
/-! DEFINITION. The plain words of the KD2240: bytes, cartridge labels, lane numbers and pairs indexed by lane. -/

namespace Sys2Proof

/-- A byte of a format, a frame or a burst (00_scope.md, Conventions). -/
abbrev Byte := BitVec 8

/-- A cartridge label: 8 ASCII characters in reading order (00_scope.md, Conventions; R189). -/
structure Label where
  c0 : Byte
  c1 : Byte
  c2 : Byte
  c3 : Byte
  c4 : Byte
  c5 : Byte
  c6 : Byte
  c7 : Byte
  deriving DecidableEq, Repr

/-- The two lanes (R85). -/
inductive LaneId where
  | l0
  | l1
  deriving DecidableEq, Repr, Inhabited

/-- The other lane. -/
def LaneId.other : LaneId → LaneId
  | .l0 => .l1
  | .l1 => .l0

/-- The lane's number. -/
def LaneId.num : LaneId → Nat
  | .l0 => 0
  | .l1 => 1

/-- One value for each lane. -/
structure Pair (α : Type) where
  p0 : α
  p1 : α
  deriving DecidableEq, Repr

/-- The value of lane `k`. -/
def Pair.get {α : Type} (p : Pair α) : LaneId → α
  | .l0 => p.p0
  | .l1 => p.p1

/-- `p` with the value of lane `k` replaced. -/
def Pair.set {α : Type} (p : Pair α) (k : LaneId) (a : α) : Pair α :=
  match k with
  | .l0 => { p with p0 := a }
  | .l1 => { p with p1 := a }

end Sys2Proof
end

