-- ==== Sys2Proof/Syntax.lean ====
section
/-! DEFINITION. The commands of the KD2240: one constructor per row of spec/opcode_table.json. -/

namespace Sys2Proof

/-- A system-side transaction (02_the_memory_path_and_its_windows.md, opening; R21): a burst of `beats` beats of
8 bytes from `addr`, a client tag, and for a write a strobe and a data byte for every byte of every beat. -/
structure Txn where
  tag : BitVec 4
  write : Bool
  addr : BitVec 32
  beats : Nat
  strobes : List Bool
  data : List Byte
  deriving DecidableEq, Repr

/-- The commands and events, in the table's order. Directive rows carry the fields of R190. -/
inductive Instr where
  /-- RESETN_LOW (R39). -/
  | resetnLow
  /-- RESETN_HIGH (R39) with the strap pins it samples (R40). -/
  | resetnHigh (dab : BitVec 4) (atm lnc : Bool)
  /-- CLIENT_TRANSACTION (R23). -/
  | clientTransaction (t : Txn)
  /-- PASSED_THROUGH_ANSWER (R24): memory's answer and, for a read, its data. -/
  | passedThroughAnswer (ok : Bool) (data : List Byte)
  /-- CONDITION_MASK_WRITE (R183): the enabled bytes of a mask write, one strobe per byte. -/
  | conditionMaskWrite (strobes : BitVec 8) (value : BitVec 64)
  /-- CONDITION_WORD_READ (R27). -/
  | conditionWordRead (t : Txn)
  /-- INTAKE_WRITE (R47). -/
  | intakeWrite (t : Txn)
  /-- HOLD_TIMER (R30) of the held intake write that is number `n` of those held, oldest first. -/
  | holdTimer (n : Nat)
  /-- ENCODER_TAKE_BYTE (R7). -/
  | encoderTakeByte (stream : Fin 8)
  /-- ENCODER_DECISION (R7). -/
  | encoderDecision (stream : Fin 8)
  /-- IDLE_TIMER (R54). -/
  | idleTimer (stream : Fin 8)
  /-- SEGMENT_APPEND (R73). -/
  | segmentAppend (lane : LaneId)
  /-- BLOCK_IDLE_TIMER (R77). -/
  | blockIdleTimer (lane : LaneId)
  /-- SEND_READ (R88). -/
  | sendRead (t : Txn)
  /-- POOL_READ_ANSWERED (R90). -/
  | poolReadAnswered (ok : Bool) (data : List Byte)
  /-- PARTIAL_READ_TIMER (R93). -/
  | partialReadTimer (lane : LaneId)
  /-- RETURN_WRITE (R94). -/
  | returnWrite (t : Txn)
  /-- ECHO_TIMER (R103). -/
  | echoTimer (lane : LaneId)
  /-- RETURN_TIMER (R92). -/
  | returnTimer (lane : LaneId)
  /-- OWN_ACCESS_ANSWERED (R38). -/
  | ownAccessAnswered (ok : Bool) (data : List Byte)
  /-- STATUS_UPDATE_ANSWERED (R185). -/
  | statusUpdateAnswered (ok : Bool)
  /-- PARAMETER_READ_ANSWERED (R180). -/
  | parameterReadAnswered (ok : Bool) (data : List Byte)
  /-- OUTCOME_WRITE_ANSWERED (R180). -/
  | outcomeWriteAnswered (ok : Bool)
  /-- DIRECTIVE_LOST (R180): a directive write of `code` taken while the slot is BUSY. -/
  | directiveLost (code : Byte)
  /-- EMPTY_CODE (R178). -/
  | emptyCode
  /-- CONFIRM (R179). -/
  | confirm
  /-- UNKNOWN_CODE (R178). -/
  | unknownCode (code : Byte)
  /-- SET_WINDOW (R35). -/
  | setWindow (role : Byte) (base size : BitVec 32)
  /-- SET_TIMING (R36). -/
  | setTiming (hold idle : BitVec 16)
  /-- SET_ATTN (R184). -/
  | setAttn (mode : Byte)
  /-- SET_POOL (R62). -/
  | setPool (base : BitVec 32) (count : Byte)
  /-- OPEN_STREAM (R42). -/
  | openStream (stream lane : Byte) (first : BitVec 32)
  /-- OPEN_RECORD (R43). -/
  | openRecord (stream : Byte) (length : BitVec 64)
  /-- END_RECORD (R44). -/
  | endRecord (stream : Byte)
  /-- FLUSH_STREAM (R45). -/
  | flushStream (stream : Byte)
  /-- CLOSE_STREAM (R46). -/
  | closeStream (stream : Byte)
  /-- APPEND (R113). -/
  | append (lane slot : Byte) (set : BitVec 16)
  /-- CLOSE_VOLUME (R117). -/
  | closeVolume (lane : Byte)
  /-- END_RUN (R120). -/
  | endRun (lane : Byte)
  /-- SET_TWIN (R123). -/
  | setTwin (on primary : Byte)
  /-- HOLD_LANE (R104). -/
  | holdLane (lane : Byte)
  /-- RELEASE_LANE (R104). -/
  | releaseLane (lane : Byte)
  /-- CANCEL_LANE (R106). -/
  | cancelLane (lane : Byte)
  /-- UNLOAD (R105). -/
  | unload (lane : Byte)
  /-- INVENTORY (R148). -/
  | inventory (which : Byte)
  /-- MOVE (R149). -/
  | move (source target : Byte)
  /-- SET_HOLD (R136). -/
  | setHold (label : Label) (on : Byte)
  /-- CLEAR_HOLDS (R137). -/
  | clearHolds
  /-- RETIRE (R138). -/
  | retire (label : Label)
  /-- RESTORE (R153). -/
  | restore (lane stream : Byte) (set : BitVec 16) (pref : Byte) (first last base size : BitVec 32)
  /-- RESTORE_CONTINUE (R164). -/
  | restoreContinue (lane : Byte) (base size : BitVec 32)
  /-- VERIFY_VOLUME (R168). -/
  | verifyVolume (lane : Byte) (label : Label)
  /-- EXPORT_SPAN (R125). -/
  | exportSpan (addr : BitVec 32)
  /-- IMPORT_SPAN (R127). -/
  | importSpan (addr : BitVec 32)
  /-- FORGET_VOLUME (R128). -/
  | forgetVolume (label : Label)
  /-- CLEAR_ERRORS (R186). -/
  | clearErrors (target : Byte)
  /-- RESET_PART (R187). -/
  | resetPart
  /-- CHANGER_COMMAND_START (R146). -/
  | changerCommandStart
  /-- MOVE_ANSWER (R144). -/
  | moveAnswer (result : Byte)
  /-- SCAN_ANSWER (R144). -/
  | scanAnswer (result : Byte) (label : Option Label)
  /-- QUERY_ANSWER (R143). -/
  | queryAnswer (result : Byte) (stateByte : Option Byte)
  /-- ANSWER_TIMER (R144). -/
  | answerTimer
  /-- QUERY_RETRY (R143). -/
  | queryRetry
  /-- MAGAZINE_OPENED (R133). -/
  | magazineOpened (which : Byte)
  /-- MAGAZINE_CLOSED (R134). -/
  | magazineClosed (which : Byte)
  /-- MAIL_SLOT_LOADED (R135). -/
  | mailSlotLoaded
  /-- MAIL_SLOT_EMPTIED (R135). -/
  | mailSlotEmptied
  /-- MECHANISM_FAULT (R145). -/
  | mechanismFault
  /-- STRAY (R141): a frame that passed the receiver. -/
  | stray (kind : Byte) (params : List Byte)
  /-- FRAMING_DISCARD (R140): the bytes that arrive on CRX. -/
  | framingDiscard (byte : Byte)
  /-- FRAME_GAP (R140). -/
  | frameGap
  /-- UNPACK_SEGMENT (R16). -/
  | unpackSegment (lane : LaneId)
  /-- ATTN_PULSE_END (R183). -/
  | attnPulseEnd
  /-- COMMAND_FRAME_SENT (R139). -/
  | commandFrameSent
  deriving DecidableEq, Repr

end Sys2Proof
end

