-- ==== Sys2Proof/Config.lean ====
section
/-! DEFINITION. What the manual fixes for the part as constants, and the free values: what the manual leaves open. -/

namespace Sys2Proof.Config

/-- The size of a block and of a pool buffer (00_scope.md, Conventions). -/
def blockBytes : Nat := 32768
/-- The payload bytes of a block (R189). -/
def payloadBytes : Nat := 32720
/-- 2^36 - 1, the greatest raw length of a record (R1). -/
def maxRaw : Nat := 2 ^ 36 - 1
/-- The modulus of the fold check's sums (R19). -/
def foldModulus : Nat := 65521
/-- The size of the intake buffer (R41). -/
def intakeBytes : Nat := 256
/-- The packed space of a segment buffer (R51). -/
def segmentBytes : Nat := 4096

/-- One microsecond is the unit of every timer of the model. -/
def second : Nat := 1000000
/-- The gap between two bytes of a frame that may not be exceeded, 20 ms (R140). -/
def frameGap : Nat := 20000
/-- The time of a byte on the Changer Link, 10 bit times at 57600 baud (R139), rounded up to a whole microsecond. -/
def byteTime : Nat := 174

/-- FREE VALUE. Which lane goes first where both choose at the same event: R114 says "in either order".
Applied to State's choice counter. Log entry 4. -/
opaque firstLane : Nat → LaneId

/-- FREE VALUE. Whether a candidate in the lane's own bay goes before one that stands in the same home slot: R114 gives
no rule for that tie. Applied to the slot number. Log entry 9. -/
opaque bayFirst : Nat → Bool

/-- FREE VALUE. The Status Block code of a changer failure whose cause is a full queue: R151 records the failure and
the code table of file 11 has no code for it. Log entry 10. -/
opaque queueFullCode : BitVec 8

end Sys2Proof.Config
end

