-- ==== Sys2Proof/Machine/Types.lean ====
section
/-! DEFINITION. The pieces of the KD2240's state as plain data, block by block. -/

namespace Sys2Proof.Machine

/-! ## Common -/

/-- A location: location number less 1 (R130). -/
abbrev Loc := Fin 27

/-- A running timer: the time it started and its period, in microseconds. -/
structure Timer where
  start : Nat
  period : Nat
  deriving DecidableEq, Repr

/-- The sums A and B of the fold check (R19). -/
structure Fold where
  a : Nat
  b : Nat
  deriving DecidableEq, Repr

/-- A number that counts up to 2^32 - 1 and is then EXHAUSTED (R41). -/
inductive Serial where
  | num (n : Nat)
  | exhausted
  deriving DecidableEq, Repr

/-! ## Path Monitor -/

/-- The refusal reasons (R33). -/
inductive Reason where
  | burst | strobe | guarded | direction | sequence | overrun | noRecord | stall | order | memory
  deriving DecidableEq, Repr

/-- The window role or range a transaction fell in (R33). -/
inductive Range where
  | intake (s : Fin 8)
  | send (k : LaneId)
  | ret (k : LaneId)
  | directive
  | pool
  | other
  deriving DecidableEq, Repr

/-- The last refusal record (R33). -/
structure RefusalRecord where
  reason : Reason
  range : Range
  tag : BitVec 4
  addr : BitVec 32
  deriving DecidableEq, Repr

/-- A set window (R34). -/
structure Window where
  base : Nat
  size : Nat
  deriving DecidableEq, Repr

/-- The Path Monitor's settings and refusal record (R33, R34, R36). Windows are numbered by role: intake 0-7,
send 8 and 9, return 10 and 11 (R190). -/
structure Path where
  windows : Vector (Option Window) 12
  holdLimit : Nat
  idleTime : Nat
  refusals : Nat
  lastRefusal : Option RefusalRecord
  deriving DecidableEq, Repr

/-- The pool geometry (R61). -/
structure Geometry where
  base : Nat
  count : Nat
  deriving DecidableEq, Repr

/-- The settings in force for what begins now: windows and pool range for transactions being classified, timing for holds
and idle periods (R35, R36, R62). They follow the settings at the answer to the Outcome Word write of the directive that
set them, and at once at a reset. -/
structure InForce where
  windows : Vector (Option Window) 12
  holdLimit : Nat
  idleTime : Nat
  pool : Option Geometry
  deriving DecidableEq, Repr

/-- An answer on the system side: OKAY or FAULT, a reason when the part itself decided the FAULT, read data. -/
structure Answer where
  tag : BitVec 4
  ok : Bool
  reason : Option Reason
  data : List Byte
  deriving DecidableEq, Repr

/-- What an accepted, unanswered transaction waits for. -/
inductive Wait where
  /-- On the client line or the memory-side port (R24). -/
  | line
  /-- Held by stream `s`: the hold limit in force when the hold began, in microseconds, and the window offset (R30, R36). -/
  | intake (s : Fin 8) (limit off : Nat)
  /-- A held Parameter Block write, to which no hold limit applies (R28). -/
  | param
  /-- A send read of lane `k` whose own pool read is not answered: the serving it belongs to and its offset (R31). -/
  | send (k : LaneId) (serving off : Nat)
  /-- A Condition Word read waiting for the answer order of its tag (R27). -/
  | cond
  /-- Decided; waiting for earlier answers of its tag (R22). -/
  | ready (a : Answer)
  deriving DecidableEq, Repr

/-- An accepted transaction that is not yet answered. `hold` is its hold timer: the time at which it was first held, none for a
transaction that never was; it runs until the answer (R22). -/
structure Waiting where
  id : Nat
  txn : Txn
  wait : Wait
  hold : Option Nat
  deriving DecidableEq, Repr

/-- The sections of the Status Block, in the order of R185. -/
inductive Section where
  | stream (s : Fin 8)
  | lane (k : LaneId)
  | pool
  | changer
  | map
  | restore (k : LaneId)
  | verify (k : LaneId)
  | path
  | unit
  deriving DecidableEq, Repr

/-- The kinds of own access (R37), each with what its owner needs at the answer. -/
inductive OwnKind where
  /-- A write into pool buffer `buf` for block `blk` of origin lane `k`. -/
  | poolWrite (k : LaneId) (buf blk : Nat)
  /-- A read of a pool buffer for the send read `id` of lane `k`. -/
  | poolRead (k : LaneId) (id : Nat)
  /-- A write of restore output on lane `k` by the job of number `job`. -/
  | restoreOut (k : LaneId) (job : Nat)
  /-- A write of the Outcome Word; `second` for the one that adds the LOST flag. -/
  | outcome (second : Bool)
  /-- The zero Outcome Word write after a hard reset (R188). -/
  | zeroOutcome
  /-- A write of an update of a Status Block section; `last` for its last access. -/
  | status (sec : Section) (last : Bool)
  /-- The read of the Parameter Block. -/
  | parameter
  /-- A write of a span image. -/
  | spanWrite (last : Bool)
  /-- A read of a span image. -/
  | spanRead (last : Bool)
  deriving DecidableEq, Repr

/-- An own access as the memory-side port presents it: a burst by the form of R21. -/
structure OwnAccess where
  kind : OwnKind
  write : Bool
  addr : Nat
  beats : Nat
  strobes : List Bool
  data : List Byte
  deriving DecidableEq, Repr

/-- The transaction the memory-side port carries. `discarded` marks an own access whose answer is to be discarded (R38, R39). -/
inductive PortTxn where
  | client (id : Nat) (t : Txn)
  | own (a : OwnAccess) (discarded : Bool)
  deriving DecidableEq, Repr

/-- The arbiter's lines (R37). -/
inductive Line where
  | client
  | own
  deriving DecidableEq, Repr

/-- The system-side transactions and the memory-port arbiter (R22, R24, R37). -/
structure Bus where
  waiting : List Waiting
  nextId : Nat
  clientLine : List (Nat × Txn)
  ownLine : List OwnAccess
  port : Option PortTxn
  lastServed : Line
  answered : List Answer
  deriving DecidableEq, Repr

/-! ## Streams -/

/-- A token of the packed stream (R2). -/
inductive Token where
  | lit (bytes : List Byte)
  | rep (count : Nat) (value : Byte)
  | copy (length distance : Nat)
  deriving DecidableEq, Repr

/-- What the encoder hands to the segment buffer: a token, or the record end with its record check (R52). -/
inductive Item where
  | token (t : Token)
  | recordEnd (check : Nat)
  deriving DecidableEq, Repr

/-- The packing state (R6). The head table holds the entries that are not empty, by rising hash. -/
structure Packing where
  pos : Nat
  known : Nat
  ended : Bool
  look : List Byte
  hist : List Byte
  head : List (Nat × Nat)
  lit : List Byte
  waitIns : List Nat
  fold : Fold
  deriving DecidableEq, Repr

/-- A segment, or the part of one that is not yet appended (R51, R70). The record check stands with LAST. -/
structure Segment where
  index : Nat
  rawOffset : Nat
  first : Bool
  last : Bool
  tokens : List Token
  check : Nat
  deriving DecidableEq, Repr

/-- The segment buffer (R51). -/
inductive SegBuf where
  | empty
  | filling (g : Segment)
  | closed (g : Segment)
  deriving DecidableEq, Repr

/-- The stream states (R41). -/
inductive StreamState where
  | closed | idle | record | ending | faulted
  deriving DecidableEq, Repr

/-- The stream fault causes (R41). -/
inductive StreamCause where
  | none | limit | cancelled
  deriving DecidableEq, Repr

/-- A stream context (R41). `waiting` holds the waiting item first, then what the same decision emitted behind it. -/
structure Stream where
  state : StreamState
  lane : Option LaneId
  taken : Nat
  nextRecord : Serial
  current : Option Nat
  declared : Nat
  recTaken : Nat
  intake : List Byte
  pack : Packing
  placed : Nat
  nextIndex : Serial
  seg : SegBuf
  waiting : List Item
  flush : Bool
  idle : Option Timer
  cause : StreamCause
  deriving DecidableEq, Repr

/-! ## Pool and Block Assembler -/

/-- The buffer states (R63). -/
inductive BufState where
  | free | filling | inFlight
  deriving DecidableEq, Repr

/-- The copy states (R66). -/
inductive CopyState where
  | queued | sent | done
  deriving DecidableEq, Repr

/-- A record number, a segment index and a FIRST or LAST flag (R83, R112). -/
structure SegRef where
  record : Nat
  index : Nat
  flag : Bool
  deriving DecidableEq, Repr

/-- An entry of a stream summary (R83). -/
structure Summary where
  stream : Fin 8
  first : SegRef
  last : SegRef
  deriving DecidableEq, Repr

/-- A buffer record (R63). `blk` names the block in the buffer, so that a late answer to a write of an earlier block is
not taken for this one. -/
structure Buffer where
  state : BufState
  origin : LaneId
  used : Nat
  segments : Nat
  fold : Fold
  check : Nat
  summary : List Summary
  copies : Pair (Option CopyState)
  blk : Nat
  deriving DecidableEq, Repr

/-- The Pool Manager (R61). -/
structure Pool where
  geometry : Option Geometry
  buffers : List Buffer
  free : List Nat
  waiters : List LaneId
  nextBlk : Nat
  deriving DecidableEq, Repr

/-- A lane's assembly state (R70). Offer queue entries and the flush mark are named by their stream. -/
structure Assembly where
  offers : List (Fin 8)
  openBlock : Option Nat
  remainder : Option Segment
  mark : Option (Fin 8)
  timer : Option Timer
  deriving DecidableEq, Repr

/-! ## Lanes -/

/-- The lane states (R85). -/
inductive LaneState where
  | empty | waitingMedia | loading | identifying | labelling | append | closing | unloading | idle | reading | fault
  deriving DecidableEq, Repr

/-- The lane fault codes (R107). -/
inductive LaneCode where
  | none | memory | echoTimeout | returnTimeout | noCartridge | media | isProtected | endOfMedia | changer | noHome | tableFull
  deriving DecidableEq, Repr

/-- The reasons of a FAULT return (R97). -/
inductive FormatterFault where
  | media | noCartridge | isProtected | endOfMedia
  deriving DecidableEq, Repr

/-- A pending order (R85). A LABEL and an EOV stand with their sequence and rewrite count (R89, R101). -/
inductive Order where
  | label (rewrites : Nat)
  | eov (seq rewrites : Nat)
  | seek (first last : Nat)
  | unload
  deriving DecidableEq, Repr

/-- A send queue entry (R85). -/
structure QueueEntry where
  buf : Nat
  seq : Option Nat
  rewrites : Nat
  carried : Bool
  deriving DecidableEq, Repr

/-- The block kinds, a DATA block with its buffer (R85). -/
inductive SentKind where
  | label
  | data (buf : Nat)
  | eov
  deriving DecidableEq, Repr

/-- A Sent List entry (R85). -/
structure SentEntry where
  kind : SentKind
  seq : Nat
  rewrites : Nat
  carried : Bool
  headerCheck : Nat
  payloadCheck : Nat
  sentAt : Nat
  deriving DecidableEq, Repr

/-- The item a lane serves (R87). -/
inductive Served where
  | data (e : QueueEntry) (seq : Nat)
  | label (rewrites : Nat)
  | eov (seq rewrites : Nat)
  | seek (first last : Nat)
  | unload
  | idle
  deriving DecidableEq, Repr

/-- The serving item: its number, its next expected offset, whether it is committed, its partial-read timer (R93), and
the header, checks and, for LABEL and EOV, payload it was stamped with (R89). -/
structure Serving where
  id : Nat
  item : Served
  next : Nat
  committed : Bool
  timer : Option Timer
  header : List Byte
  headerCheck : Nat
  payloadCheck : Nat
  payload : List Byte
  deriving DecidableEq, Repr

/-- A delivered SEEK or UNLOAD with its return timer, stopped while a restore waits for a destination (R92, R164). -/
structure Outstanding where
  seek : Option (Nat × Nat)
  timer : Option Timer
  deriving DecidableEq, Repr

/-- The return in progress: its bytes so far (as many as its next expected offset) and its folds (R94). -/
structure Return where
  bytes : List Byte
  headerFold : Fold
  payloadFold : Fold
  deriving DecidableEq, Repr

/-- The volume items of a lane (R85, R115). -/
structure Volume where
  label : Label
  set : Nat
  number : Nat
  twin : Bool
  nextSeq : Nat
  positions : Nat
  verified : Nat
  rewrites : List (Nat × Nat)
  deriving DecidableEq, Repr

/-- The role of a run (R111). -/
inductive Role where
  | single | primary | twin
  deriving DecidableEq, Repr

/-- The cartridge a lane has chosen: its label and home slot (R111), and whether a LABEL has been sent on it since, by which R122
tells whether it may return to SCRATCH. -/
structure Chosen where
  label : Label
  home : Option Nat
  labelled : Bool
  deriving DecidableEq, Repr

/-- The run items (R111). `capacities` keeps, newest first, the capacity chosen for each volume number of the run,
which the other lane's limit needs (R124). -/
structure Run where
  isOpen : Bool
  role : Role
  set : Nat
  nextVolume : Nat
  namedSlot : Nat
  stopAfter : Bool
  chosen : Option Chosen
  ownCapacity : Nat
  limit : Nat
  warned : Bool
  due : Nat
  eovList : List (Fin 8 × Nat × Nat)
  absentFrom : Nat
  capacities : List (Nat × Nat)
  deriving DecidableEq, Repr

/-- Lending of a cartridge to the other lane (R156): UNLOADED taken, borrower gone, the changer entry of the borrower's load
once it is asked for (the model's own number, log entry 5), so that the end of an earlier load, cut off from its lane, does
not end this lending (R146). -/
structure Lending where
  unloaded : Bool
  orphan : Bool
  load : Option Nat
  deriving DecidableEq, Repr

/-! ### Span Table (R112) -/

/-- The states of a cartridge (R131); OPEN, FULL, INTERRUPTED and SUSPECT are also the state mirrors (R112). -/
inductive CartState where
  | scratch | opened | full | interrupted | suspect | foreign | unlabelled
  deriving DecidableEq, Repr

/-- The suspect causes (R112, R173). -/
inductive SuspectCause where
  | none | rewriteLimit | media | isProtected | verifyFailed
  deriving DecidableEq, Repr

/-- A stream range (R112). -/
structure StreamRange where
  stream : Fin 8
  first : SegRef
  last : SegRef
  firstBlock : Nat
  lastBlock : Nat
  continuation : Option (Nat × Nat)
  deriving DecidableEq, Repr

/-- A span entry (R112). `twin` is the copy: false PRIMARY, true TWIN. -/
structure SpanEntry where
  label : Label
  set : Nat
  number : Nat
  twin : Bool
  mirror : CartState
  cause : SuspectCause
  positions : Nat
  verified : Nat
  eovVerified : Bool
  runs : List (Nat × Nat)
  absentFrom : Nat
  ranges : List StreamRange
  deriving DecidableEq, Repr

/-! ### Unpacker and read jobs -/

/-- The results a record can be reported with (R15-R18). -/
inductive RecResult where
  | done | recordCheck | format | damaged | incomplete | isPartial | unstarted
  deriving DecidableEq, Repr

/-- A record being decoded (R14). `hist` holds the last up to 4096 bytes, newest first. -/
structure Decoding where
  record : Nat
  nextIndex : Nat
  produced : Nat
  hist : List Byte
  fold : Fold
  deriving DecidableEq, Repr

/-- A record slot (R14). -/
inductive Slot where
  | empty
  | decoding (d : Decoding)
  | discarding (record : Nat)
  deriving DecidableEq, Repr

/-- An unpack context (R14). `output` is the mode. -/
structure Unpack where
  output : Bool
  slots : Vector Slot 8
  deriving DecidableEq, Repr

/-- The decoder's place in a segment (R16): the packed bytes not yet read and the token being produced. -/
structure Place where
  rest : List Byte
  current : Option Token
  last : Bool
  check : Nat
  deriving DecidableEq, Repr

/-- The walk through an accepted block (R161): the payload offset of the next segment, the used payload bytes, the decoder's
place when it stands inside a segment, and, once the segment there was passed on, whether it settled a gap (R160). -/
structure Walk where
  off : Nat
  used : Nat
  place : Option Place
  passed : Option Bool
  deriving DecidableEq, Repr

/-- A volume record of a restore (R152). -/
structure VolRecord where
  label : Label
  number : Nat
  firstBlock : Nat
  lastBlock : Nat
  first : SegRef
  last : SegRef
  continuation : Option (Nat × Nat)
  runs : List (Nat × Nat)
  deriving DecidableEq, Repr

/-- The phases of a restore (R152). -/
inductive RestorePhase where
  | waitingVerify | fetching | identifying | reading | waitingDest | ending
  deriving DecidableEq, Repr

/-- The phases of a verify job (R167). -/
inductive VerifyPhase where
  | fetching | identifying | reading | ending | suspended
  deriving DecidableEq, Repr

/-- The results of a read job (R152, R167). -/
inductive JobResult where
  | none | complete | inUse | volumeMissing | wrongVolume | memory | laneFault | cancelled
  deriving DecidableEq, Repr

/-- Where a job stands with a cartridge it borrows (R156). -/
inductive Loan where
  | none
  /-- The own cartridge is on its way out; the loan is judged again after its home move. -/
  | clearing
  /-- The other lane unloads. -/
  | unloading
  /-- The load from the other bay is asked for. -/
  | loading
  deriving DecidableEq, Repr

/-- What the read job that has the lane holds of its access to the cartridge, the same for both kinds of job: the chunk
pending or outstanding (R152, R167), the identity decided so far (R157), a loan (R156), the location its cartridge was
found at (R155), the walk through an accepted block (R161). -/
structure Access where
  chunk : Option (Nat × Nat)
  identity : Option Bool
  loan : Loan
  source : Option Loc
  walk : Option Walk
  deriving DecidableEq, Repr

/-- A restore job (R152). `id` tells its output writes from those of a job before it; `early` holds once the job has ended early and waits for its chunk (R165). -/
structure RestoreJob where
  id : Nat
  set : Nat
  stream : Fin 8
  reqFirst : Nat
  reqLast : Nat
  pref : Nat
  twinCopy : Bool
  effFirst : Nat
  effLast : Nat
  volumes : List VolRecord
  current : Nat
  phase : RestorePhase
  expected : Nat
  gap : Bool
  cursor : Nat
  openPrefix : Option Nat
  destBase : Nat
  destSize : Nat
  pointer : Nat
  done : Nat
  failed : Nat
  firstFailed : Option Nat
  written : Nat
  damaged : Nat
  lost : Nat
  early : Bool
  result : JobResult
  deriving DecidableEq, Repr

/-- A verify job (R167). -/
structure VerifyJob where
  label : Label
  verified : Nat
  eovVerified : Bool
  absentFrom : Nat
  runs : List (Nat × Nat)
  phase : VerifyPhase
  expected : Nat
  gaps : Vector Bool 8
  kept : List (Fin 8 × Nat)
  accepted : Nat
  damaged : Nat
  lost : Nat
  skipped : Nat
  done : Nat
  failed : Nat
  partials : Nat
  chunks : Nat
  firstFailure : Option (Fin 8 × Nat × RecResult)
  result : JobResult
  deriving DecidableEq, Repr

/-- A lane context (R85, R111, R14, R152, R167). `nextServing` numbers the lane's servings and restore jobs; `cut` is the
next expected offset of the return that entry into FAULT discarded, until that return is refused or another begins (the
model's own, log entry 37). -/
structure Lane where
  state : LaneState
  code : LaneCode
  held : Bool
  queue : List QueueEntry
  pending : Option Order
  owedEov : Option (Nat × Nat)
  sent : List SentEntry
  stale : List (Nat × Nat)
  serving : Option Serving
  nextServing : Nat
  outstanding : Option Outstanding
  ret : Option Return
  cut : Option Nat
  buffer : Option (List Byte)
  volume : Option Volume
  run : Run
  lending : Option Lending
  restore : Option RestoreJob
  lastRestore : Option RestoreJob
  verify : Option VerifyJob
  lastVerify : Option VerifyJob
  access : Access
  unpack : Unpack
  unexpected : Nat
  lastFault : Option FormatterFault
  deriving DecidableEq, Repr

/-- The twin setting (R123). -/
structure Twin where
  on : Bool
  primary : LaneId
  deriving DecidableEq, Repr

/-! ## Magazine Map and changer -/

/-- The occupancies (R130). -/
inductive Occupancy where
  | empty | occupied | unknown
  deriving DecidableEq, Repr

/-- A location record (R130). The home slot is 1-24, 25 for M, or none. -/
structure LocRecord where
  occ : Occupancy
  label : Option Label
  state : Option CartState
  verified : Bool
  home : Option Nat
  deriving DecidableEq, Repr

/-- The magazines (R130). -/
inductive Magazine where
  | left | right
  deriving DecidableEq, Repr

/-- The Magazine Map with its open flags, and the Hold List (R130, R133, R136). -/
structure Library where
  records : Vector LocRecord 27
  openL : Bool
  openR : Bool
  holds : List Label
  deriving DecidableEq, Repr

/-- The changer states (R143). -/
inductive ChangerState where
  | offline | ready | busy | faulted
  deriving DecidableEq, Repr

/-- The entries of the changer queue (R146). An inventory holds the locations still to scan and whether its first
command has started. -/
inductive Job where
  | load (k : LaneId) (source : Loc) (label : Label)
  | home (k : LaneId)
  | move (source target : Loc)
  | inventory (toScan : List Loc)
  | scanM
  deriving DecidableEq, Repr

/-- A changer queue entry. `started` once its first command has been sent; `cut` once it is cut off from its lane. -/
structure Entry where
  id : Nat
  job : Job
  started : Bool
  cut : Bool
  deriving DecidableEq, Repr

/-- The commands of the part to the mechanism (R139). -/
inductive Command where
  | move (source target : Loc)
  | scan (place : Loc)
  | query
  deriving DecidableEq, Repr

/-- The command outstanding: its queue entry, its answer timer once the frame is sent, and whether a RESET PART came
meanwhile (R150). -/
structure OutCommand where
  command : Command
  entry : Option Nat
  timer : Option Timer
  afterReset : Bool
  deriving DecidableEq, Repr

/-- The causes of a changer failure (R151). -/
inductive FailCause where
  | sourceEmpty | targetFull | doorOpen | mechanism | timeout | magazineOpen | changerFault | noHome | parameter | state
  | loadCheck | queueFull
  deriving DecidableEq, Repr

/-- What a last failure was of (R151). -/
inductive FailEntry where
  | load (k : LaneId)
  | home (k : LaneId)
  | move
  | inventory
  | scanM
  deriving DecidableEq, Repr

/-- The last failure (R151). -/
structure LastFailure where
  entry : FailEntry
  source : Option Loc
  target : Option Loc
  cause : FailCause
  deriving DecidableEq, Repr

/-- The receiver's framing state (R140): hunting, or the bytes taken since SYNC and the time the last byte ended. -/
inductive Receiver where
  | hunting
  | taking (bytes : List Byte) (last : Nat)
  deriving DecidableEq, Repr

/-- The Changer Link (R139-R151). `sent` is the model's record of the frames sent on CTX, oldest first. -/
structure Changer where
  state : ChangerState
  queue : List Entry
  nextEntry : Nat
  out : Option OutCommand
  querySent : Nat
  receiver : Receiver
  discards : Nat
  strays : Nat
  lastFailure : Option LastFailure
  sent : List (List Byte)
  deriving DecidableEq, Repr

/-! ## Directive Unit -/

/-- The outcome results (R181). -/
inductive Result where
  | accepted | busy | state | parameter | overlap | sequence | notFound | full | limit | unknownCode
  deriving DecidableEq, Repr

/-- The Outcome Word copy (R181). -/
structure Outcome where
  code : Nat
  result : Result
  lost : Bool
  detail : Nat
  count : Nat
  deriving DecidableEq, Repr

/-- The stages of a BUSY slot (R180): a confirmed directive whose parameter read lets the Parameter Block writes made in PENDING
reach memory first (R179), waiting for the parameter read, carrying a span image, waiting for the outcome write, or for the second
outcome write. -/
inductive Stage where
  | writes
  | parameter
  | exporting (count : Nat)
  | importing (addr : Nat) (image : List Byte)
  | outcome
  | second
  deriving DecidableEq, Repr

/-- The directive slot (R178). -/
inductive DirSlot where
  | ready
  | pending (code : Nat)
  | busy (code : Nat) (lost : Bool) (stage : Stage)
  deriving DecidableEq, Repr

/-- The ATTN line (R183): released, driven in level mode, or driven by a pulse since a time. -/
inductive Attn where
  | released
  | level
  | pulse (since : Nat)
  deriving DecidableEq, Repr

/-- The Directive Unit (R178-R184). `pendingFrom` is the number of the first transaction accepted since the slot last entered
PENDING (the model's own, log entries 5 and 55). -/
structure DirUnit where
  slot : DirSlot
  pendingFrom : Nat
  outcome : Outcome
  latched : BitVec 64
  mask : BitVec 64
  pulseMode : Bool
  attn : Attn
  deriving DecidableEq, Repr

/-- One section's update state (R185). -/
structure SectionState where
  sec : Section
  count : Nat
  unanswered : Bool
  stale : Bool
  deriving DecidableEq, Repr

/-- The pins and straps (R39, R40). -/
structure Pins where
  resetLow : Bool
  dab : BitVec 4
  atm : Bool
  lnc : Bool
  deriving DecidableEq, Repr

/-! ## The whole part -/

/-- Everything the KD2240 holds. `now` is the time in microseconds, `choice` the counter free choices are applied to.
`touched` and `rose` last for one event: the sections it marks to be written, the level bits it makes rise (R185, R183). -/
structure Part where
  now : Nat
  choice : Nat
  pins : Pins
  path : Path
  force : InForce
  bus : Bus
  streams : Vector Stream 8
  pool : Pool
  assembly : Pair Assembly
  lanes : Pair Lane
  twin : Twin
  span : List SpanEntry
  library : Library
  changer : Changer
  unit : DirUnit
  status : List SectionState
  touched : List Section
  rose : BitVec 64
  deriving DecidableEq, Repr

end Sys2Proof.Machine
end

