-- ==== Sys2Proof/Machine/Bytes.lean ====
section
/-! DEFINITION. Byte order, slices, labels and the fold check. -/

namespace Sys2Proof.Machine

/-- The byte of a number's low 8 bits. -/
def byteOf (n : Nat) : Byte := BitVec.ofNat 8 n

/-- `k` bytes of `n`, little-endian (R189). -/
def leBytes : Nat → Nat → List Byte
  | 0, _ => []
  | k + 1, n => byteOf n :: leBytes k (n / 256)

/-- The number a little-endian field holds (R189). -/
def leNat : List Byte → Nat
  | [] => 0
  | b :: bs => b.toNat + 256 * leNat bs

/-- `k` bytes of `bs` from offset `off`. -/
def slice (bs : List Byte) (off k : Nat) : List Byte := (bs.drop off).take k

/-- The little-endian field of `k` bytes at offset `off`. -/
def field (bs : List Byte) (off k : Nat) : Nat := leNat (slice bs off k)

/-- The byte at offset `off`, 0x00 past the end. -/
def byteAt (bs : List Byte) (off : Nat) : Byte := bs.getD off 0

/-- `n` bytes of 0x00. -/
def zeros (n : Nat) : List Byte := List.replicate n 0

/-- `bs` filled with 0x00, or cut, to `n` bytes. -/
def padTo (n : Nat) (bs : List Byte) : List Byte := (bs ++ zeros (n - bs.length)).take n

/-- A byte of a flag. -/
def boolByte (b : Bool) : Byte := if b then 1 else 0

/-- A label's 8 bytes in reading order (R189). -/
def labelBytes (l : Label) : List Byte := [l.c0, l.c1, l.c2, l.c3, l.c4, l.c5, l.c6, l.c7]

/-- The label at offset `off`. -/
def labelAt (bs : List Byte) (off : Nat) : Label :=
  ⟨byteAt bs off, byteAt bs (off + 1), byteAt bs (off + 2), byteAt bs (off + 3),
   byteAt bs (off + 4), byteAt bs (off + 5), byteAt bs (off + 6), byteAt bs (off + 7)⟩

/-- A printable character, 0x20 to 0x7E (00_scope.md, Conventions). -/
def printable (b : Byte) : Bool := 0x20 ≤ b.toNat && b.toNat ≤ 0x7E

/-- An upper-case letter or a digit (R131). -/
def letterOrDigit (b : Byte) : Bool :=
  (0x41 ≤ b.toNat && b.toNat ≤ 0x5A) || (0x30 ≤ b.toNat && b.toNat ≤ 0x39)

/-- The class digit of a label's last character, whatever the rest (R131). -/
def classOf (l : Label) : Nat := l.c7.toNat - 0x30

/-- A label of valid format (R131). -/
def validLabel (l : Label) : Bool :=
  ((labelBytes l).take 6).all letterOrDigit && l.c6 == 0x4B && (0x31 ≤ l.c7.toNat && l.c7.toNat ≤ 0x33)

/-- The capacity in positions of a class (R114). -/
def classCapacity (c : Nat) : Nat :=
  match c with
  | 1 => 12288
  | 2 => 49152
  | 3 => 196608
  | _ => 0

/-- A count of 32 bits that wraps to 0 after its largest value. -/
def wrap32 (n : Nat) : Nat := n % 2 ^ 32

/-! ## The fold check (R19) -/

/-- The sums before any byte. -/
def Fold.start : Fold := ⟨1, 0⟩

/-- One byte folded: A first, then B from the new A (R19). -/
def Fold.add (f : Fold) (x : Byte) : Fold :=
  let a := (f.a + x.toNat) % Config.foldModulus
  ⟨a, (f.b + a) % Config.foldModulus⟩

/-- A run of bytes folded in order. -/
def Fold.addAll (f : Fold) (xs : List Byte) : Fold := xs.foldl Fold.add f

/-- The check of the sums: B × 65536 + A (R19). -/
def Fold.value (f : Fold) : Nat := 65536 * f.b + f.a

/-- The fold check of a run of bytes (R19). -/
def foldCheck (xs : List Byte) : Nat := (Fold.start.addAll xs).value

end Sys2Proof.Machine
end

