-- ==== Sys2Proof/Machine/Packing.lean ====
section
/-! DEFINITION. The packing arithmetic: tokens, the head table, the encoder's decision (R2 to R11). -/

namespace Sys2Proof.Machine

/-! ## Tokens (R2) -/

/-- The packed bytes of a token (R2). -/
def Token.packed : Token → List Byte
  | .lit bs => byteOf (bs.length - 1) :: bs
  | .rep n v => [byteOf (0x40 + n - 3), v]
  | .copy l d => [byteOf (0x80 + (l - 3) * 16 + (d - 1) / 256), byteOf ((d - 1) % 256)]

/-- The packed size of a token (R2). -/
def Token.size (t : Token) : Nat := t.packed.length

/-- The raw bytes a token stands for (R2). -/
def Token.raw : Token → Nat
  | .lit bs => bs.length
  | .rep n _ => n
  | .copy l _ => l

/-- The packed bytes of a run of tokens. -/
def packedBytes (ts : List Token) : List Byte := ts.flatMap Token.packed

/-- The packed length of a run of tokens. -/
def packedLength (ts : List Token) : Nat := (ts.map Token.size).sum

/-- The raw length of a run of tokens. -/
def rawLength (ts : List Token) : Nat := (ts.map Token.raw).sum

/-! ## Hash and head table (R4, R5) -/

/-- The hash of three bytes (R4). -/
def hash3 (b0 b1 b2 : Byte) : Nat := (b0.toNat * 64 + b1.toNat * 8 + b2.toNat) % 1024

/-- Sets the head table entry `h` to position `j` (R4); the table stays sorted by hash. -/
def headSet (h j : Nat) : List (Nat × Nat) → List (Nat × Nat)
  | [] => [(h, j)]
  | (h', j') :: rest =>
    if h < h' then (h, j) :: (h', j') :: rest
    else if h = h' then (h, j) :: rest
    else (h', j') :: headSet h j rest

/-- The head table entry `h`, none when empty (R4). -/
def headGet (h : Nat) (t : List (Nat × Nat)) : Option Nat := (t.find? (fun e => e.1 == h)).map (·.2)

/-- The empty packing state of R6. -/
def Packing.empty : Packing :=
  { pos := 0, known := 0, ended := false, look := [], hist := [], head := [], lit := [], waitIns := [], fold := Fold.start }

/-- The bytes the encoder can see around its position: the history, then the lookahead. -/
def Packing.around (k : Packing) : List Byte := k.hist ++ k.look

/-- The raw byte at record position `j`, which the history or the lookahead holds. -/
def Packing.rawAt (k : Packing) (j : Nat) : Byte := byteAt k.around (j + k.hist.length - k.pos)

/-- Inserts position `j` into the head table (R4). -/
def Packing.insert (k : Packing) (j : Nat) : Packing :=
  { k with head := headSet (hash3 (k.rawAt j) (k.rawAt (j + 1)) (k.rawAt (j + 2))) j k.head }

/-- Inserts a passed position by R5: at once when its third byte is known; else it waits, or is dropped when the record has ended. -/
def Packing.insertPassed (k : Packing) (j : Nat) : Packing :=
  if j + 2 < k.known then k.insert j
  else if k.ended then k
  else { k with waitIns := k.waitIns ++ [j] }

/-- Inserts `n` positions from `j` upward (R8, R9, R10). -/
def Packing.insertFrom (k : Packing) (j : Nat) : Nat → Packing
  | 0 => k
  | n + 1 => (k.insertPassed j).insertFrom (j + 1) n

/-- Moves the position on by `n` bytes: they leave the lookahead and join the history, which keeps the last 4096 (R6). -/
def Packing.advance (k : Packing) (n : Nat) : Packing :=
  let h := k.hist ++ k.look.take n
  { k with pos := k.pos + n, look := k.look.drop n, hist := h.drop (h.length - 4096) }

/-- The waiting insertions that the record end drops (R5). -/
def Packing.setEnded (k : Packing) : Packing :=
  { k with ended := true, waitIns := k.waitIns.filter (fun j => j + 2 < k.known) }

/-- The waiting insertions whose third byte is now known are made, in order (R5). -/
def Packing.completeInsertions (k : Packing) : Packing :=
  let due := k.waitIns.filter (fun j => j + 2 < k.known)
  due.foldl Packing.insert { k with waitIns := k.waitIns.filter (fun j => ¬ (j + 2 < k.known)) }

/-- One byte taken into the lookahead (R7). -/
def Packing.takeByte (k : Packing) (x : Byte) : Packing :=
  Packing.completeInsertions
    { k with look := k.look ++ [x], known := k.known + 1, fold := k.fold.add x }

/-! ## The decision (R7 to R10) -/

/-- The repeat count r of R8: equal bytes from the position, at most 66 and at most n. -/
def repeatCount (look : List Byte) : Nat :=
  match look with
  | [] => 0
  | x :: _ => min 66 (look.takeWhile (· == x)).length

/-- The match count m of R9 between two runs of bytes, up to a limit. -/
def matchCount : Nat → List Byte → List Byte → Nat
  | 0, _, _ => 0
  | n + 1, a :: as, b :: bs => if a == b then matchCount n as bs + 1 else 0
  | _ + 1, _, _ => 0

/-- The tokens that flush a pending literal run (R8, R9, R11). -/
def flushLiteral (l : List Byte) : List Token := if l.isEmpty then [] else [.lit l]

/-- The valid candidate and its match count at the position (R9), or none. -/
def Packing.candidate (k : Packing) : Option (Nat × Nat) :=
  if k.look.length < 3 then none
  else
    match headGet (hash3 (byteAt k.look 0) (byteAt k.look 1) (byteAt k.look 2)) k.head with
    | none => none
    | some q =>
      if k.pos - q ≤ 4096 then
        some (q, matchCount (min 10 k.look.length) (k.around.drop (k.hist.length - (k.pos - q))) k.look)
      else none

/-- The literal step (R10). -/
def Packing.literalStep (k : Packing) : Packing × List Token :=
  let l := k.lit ++ [byteAt k.look 0]
  let k' := (k.insertFrom k.pos 1).advance 1
  if l.length = 64 then ({ k' with lit := [] }, [.lit l]) else ({ k' with lit := l }, [])

/-- One decision at the position: the state after it and the tokens it emits, in order (R8, R9, R10). -/
def Packing.decision (k : Packing) : Packing × List Token :=
  let r := repeatCount k.look
  if 3 ≤ r then
    (((k.insertFrom k.pos r).advance r) |> fun k' => { k' with lit := [] },
      flushLiteral k.lit ++ [.rep r (byteAt k.look 0)])
  else
    match k.candidate with
    | some (q, m) =>
      if 3 ≤ m then
        (((k.insertFrom k.pos m).advance m) |> fun k' => { k' with lit := [] },
          flushLiteral k.lit ++ [.copy m (k.pos - q)])
      else k.literalStep
    | none => k.literalStep

end Sys2Proof.Machine
end

