-- ==== Sys2Proof/Machine/Ops.lean ====
section
/-! DEFINITION. The named operations over the part's state: access to lanes, streams and records, own accesses and their bursts, refusals and answers, timers, strobes and the Parameter Block's writes. -/

namespace Sys2Proof

/-! ## Strobes (R21) -/

/-- The strobe of the write's byte at distance `i` from its address. -/
def Txn.strobe (t : Txn) (i : Nat) : Bool := decide (i < 8 * t.beats) && t.strobes.getD i false

/-- Whether a write enables the byte at directive area offset `o`, the burst standing at offset `off`. -/
def Txn.enables (t : Txn) (off o : Nat) : Bool := decide (off ≤ o) && t.strobe (o - off)

/-- Whether a write enables any of the `n` bytes at offset `o`. -/
def Txn.enablesAny (t : Txn) (off o n : Nat) : Bool := (List.range n).any (fun i => t.enables off (o + i))

end Sys2Proof

namespace Sys2Proof.Machine

/-! ## Access -/

/-- Lane `k`. -/
def Part.lane (s : Part) (k : LaneId) : Lane := s.lanes.get k
/-- `s` with lane `k` replaced. -/
def Part.setLane (s : Part) (k : LaneId) (l : Lane) : Part := { s with lanes := s.lanes.set k l }
/-- `s` with lane `k` changed by `f`. -/
def Part.modLane (s : Part) (k : LaneId) (f : Lane → Lane) : Part := s.setLane k (f (s.lane k))
/-- Stream `i`. -/
def Part.stream (s : Part) (i : Fin 8) : Stream := s.streams[i]
/-- `s` with stream `i` replaced. -/
def Part.setStream (s : Part) (i : Fin 8) (x : Stream) : Part := { s with streams := s.streams.set i x }
/-- `s` with stream `i` changed by `f`. -/
def Part.modStream (s : Part) (i : Fin 8) (f : Stream → Stream) : Part := s.setStream i (f (s.stream i))
/-- The assembly state of lane `k`. -/
def Part.asm (s : Part) (k : LaneId) : Assembly := s.assembly.get k
/-- `s` with the assembly state of lane `k` replaced. -/
def Part.setAsm (s : Part) (k : LaneId) (a : Assembly) : Part := { s with assembly := s.assembly.set k a }
/-- `s` with the assembly state of lane `k` changed by `f`. -/
def Part.modAsm (s : Part) (k : LaneId) (f : Assembly → Assembly) : Part := s.setAsm k (f (s.asm k))
/-- The location record of `p`. -/
def Part.loc (s : Part) (p : Loc) : LocRecord := s.library.records[p]
/-- `s` with the location record of `p` replaced. -/
def Part.setLoc (s : Part) (p : Loc) (r : LocRecord) : Part :=
  { s with library := { s.library with records := s.library.records.set p r } }
/-- Every stream number, rising. -/
def streamIds : List (Fin 8) := List.finRange 8
/-- Every location, rising. -/
def locs : List Loc := List.finRange 27
/-- Slots 1 to 24. -/
def slots : List Loc := locs.take 24
/-- The mail slot M (R130). -/
def mailSlot : Loc := 24
/-- The drive bay of lane `k` (R130). -/
def bay : LaneId → Loc
  | .l0 => 25
  | .l1 => 26
/-- The lane whose bay a location is. -/
def bayLane (p : Loc) : Option LaneId := if p = 25 then some .l0 else if p = 26 then some .l1 else none
/-- The location of a location number, 1 to 27 (R130). -/
def locOf (n : Nat) : Option Loc := if h : 1 ≤ n ∧ n ≤ 27 then some ⟨n - 1, by omega⟩ else none
/-- The location number (R130). -/
def locNum (p : Loc) : Nat := p.val + 1
/-- The magazine a location belongs to (R130). -/
def magazineOf (p : Loc) : Option Magazine :=
  if p.val < 12 then some .left else if p.val < 24 then some .right else none
/-- Whether a magazine's open flag is set (R133). -/
def Part.isOpen (s : Part) : Magazine → Bool
  | .left => s.library.openL
  | .right => s.library.openR
/-- Whether a location is a slot of a magazine whose open flag is set (R133). -/
def Part.inOpenMagazine (s : Part) (p : Loc) : Bool :=
  match magazineOf p with
  | some m => s.isOpen m
  | none => false
/-- Whether a lane is present on this part (R40). -/
def Part.present (s : Part) (k : LaneId) : Bool := k == .l0 || s.pins.lnc
/-- The lane a Parameter Block byte names, none when it is out of range or absent (R40, section 5.5). -/
def Part.laneArg (s : Part) (b : Byte) : Option LaneId :=
  if b = 0 then some .l0 else if b = 1 ∧ s.pins.lnc = true then some .l1 else none
/-- The stream a Parameter Block byte names (section 3.2). -/
def streamArg (b : Byte) : Option (Fin 8) := if h : b.toNat < 8 then some ⟨b.toNat, h⟩ else none
/-- The base of the directive area (R40). -/
def Part.areaBase (s : Part) : Nat := 0x1000000 * s.pins.dab.toNat
/-- The next value of the choice counter for a free choice, and the state with the counter moved on. -/
def Part.choose (s : Part) : Nat × Part := (s.choice, { s with choice := s.choice + 1 })

/-- Whether an address lies in a range of a base and a size. -/
def within (a base size : Nat) : Bool := decide (base ≤ a ∧ a < base + size)

/-- Whether two ranges of `n` and `m` bytes share an address. -/
def overlaps (a n b m : Nat) : Bool := decide (a < b + m ∧ b < a + n ∧ 0 < n ∧ 0 < m)

/-! ## Timers -/

/-- A timer started now. -/
def Part.timer (s : Part) (period : Nat) : Timer := ⟨s.now, period⟩
/-- Whether a timer's full period has passed (00_scope.md, Times). -/
def Part.due (s : Part) (t : Timer) : Bool := decide (t.start + t.period ≤ s.now)
/-- Whether a timer runs and its full period has passed. -/
def Part.ranOut (s : Part) : Option Timer → Bool
  | some t => s.due t
  | none => false
/-- The idle time in force, as a period (R36). -/
def Part.idlePeriod (s : Part) : Nat := 100000 * s.force.idleTime
/-- The hold limit in force, as a period (R36). -/
def Part.holdPeriod (s : Part) : Nat := 100 * s.force.holdLimit

/-! ## Conditions and sections -/

/-- The latched conditions (R182). -/
inductive Cond where
  | directiveDone | directiveLost | streamStall | streamFault | poolLow | guarded | echoRetry | volumeChanged
  | noScratch | eovDone | changerFault | inventoryDone | inventorySkipped | restoreDone | restoreWait | verifyDone
  deriving DecidableEq, Repr

/-- A latched condition's bit number (section 11.5). -/
def Cond.bit : Cond → Nat
  | .directiveDone => 0 | .directiveLost => 1 | .streamStall => 2 | .streamFault => 3 | .poolLow => 4 | .guarded => 5
  | .echoRetry => 6 | .volumeChanged => 7 | .noScratch => 8 | .eovDone => 9 | .changerFault => 10
  | .inventoryDone => 11 | .inventorySkipped => 12 | .restoreDone => 13 | .restoreWait => 14 | .verifyDone => 15

/-- Latches a condition (R182). -/
def Part.latch (s : Part) (c : Cond) : Part :=
  { s with unit := { s.unit with latched := s.unit.latched ||| (1#64 <<< c.bit) } }

/-- Marks a Status Block section to be written at the end of the event (R185). -/
def Part.touch (s : Part) (x : Section) : Part := { s with touched := s.touched ++ [x] }

/-- A level bit rises at this event, be it that it fell at the same event (R183). -/
def Part.rise (s : Part) (n : Nat) : Part := { s with rose := s.rose ||| (1#64 <<< n) }

/-! ## Settings in force (R35, R36, R62) -/

/-- The settings as the directives have set them. -/
def Part.settings (s : Part) : InForce :=
  { windows := s.path.windows, holdLimit := s.path.holdLimit, idleTime := s.path.idleTime, pool := s.pool.geometry }

/-- The settings come into force. -/
def Part.enforce (s : Part) : Part := { s with force := s.settings }

/-! ## Own accesses (R37) -/

/-- A run of bytes cut at 128-byte boundaries, in address order, so that no part crosses a 4 KiB boundary. `fuel` bounds the parts. -/
def cutRun : Nat → Nat → List Byte → List (Nat × List Byte)
  | 0, _, _ => []
  | fuel + 1, addr, bs =>
    if bs.isEmpty then []
    else
      let n := 128 - addr % 128
      (addr, bs.take n) :: cutRun fuel (addr + n) (bs.drop n)

/-- The burst that writes `bs` at `addr`: 8-byte aligned, strobes on exactly those bytes (R21, R37). -/
def writeBurst (kind : OwnKind) (addr : Nat) (bs : List Byte) : OwnAccess :=
  let lead := addr % 8
  let beats := (lead + bs.length + 7) / 8
  let tail := 8 * beats - (lead + bs.length)
  { kind := kind, write := true, addr := addr - lead, beats := beats,
    strobes := List.replicate lead false ++ List.replicate bs.length true ++ List.replicate tail false,
    data := zeros lead ++ bs ++ zeros tail }

/-- The bursts that write a run of bytes in address order; `kind` is told which is the last. -/
def writeBursts (kind : Bool → OwnKind) (addr : Nat) (bs : List Byte) : List OwnAccess :=
  let runs := cutRun (bs.length + 1) addr bs
  runs.zipIdx.map (fun p => writeBurst (kind (p.2 + 1 == runs.length)) p.1.1 p.1.2)

/-- The burst that reads `beats` beats at `addr`. -/
def readBurst (kind : OwnKind) (addr beats : Nat) : OwnAccess :=
  { kind := kind, write := false, addr := addr, beats := beats, strobes := [], data := [] }

/-- Joins own accesses to the own line (R37). -/
def Part.pushOwn (s : Part) (as : List OwnAccess) : Part :=
  { s with bus := { s.bus with ownLine := s.bus.ownLine ++ as } }

/-- Joins the writes of a run of bytes to the own line. -/
def Part.pushWrites (s : Part) (kind : Bool → OwnKind) (addr : Nat) (bs : List Byte) : Part :=
  s.pushOwn (writeBursts kind addr bs)

/-- Whether an own access belongs to lane `k` (R37). -/
def OwnKind.ofLane (k : LaneId) : OwnKind → Bool
  | .poolWrite k' _ _ => k' == k
  | .poolRead k' _ => k' == k
  | .restoreOut k' _ => k' == k
  | _ => false

/-- Removes from the own line the accesses of a kind (R38). -/
def Part.dropOwn (s : Part) (p : OwnKind → Bool) : Part :=
  { s with bus := { s.bus with ownLine := s.bus.ownLine.filter (fun a => !p a.kind) } }

/-! ## Transactions: answers and refusals (R22, R33) -/

/-- Sets what transaction `id` waits for. -/
def Part.setWait (s : Part) (id : Nat) (w : Wait) : Part :=
  { s with bus := { s.bus with waiting := s.bus.waiting.map (fun x => if x.id = id then { x with wait := w } else x) } }

/-- Holds transaction `id` as `w` says; its hold timer starts when it is first held (R22). -/
def Part.hold (s : Part) (id : Nat) (w : Wait) : Part :=
  { s with bus := { s.bus with waiting := s.bus.waiting.map (fun x =>
      if x.id = id then { x with wait := w, hold := x.hold <|> some s.now } else x) } }

/-- Whether a transaction's hold timer has reached `limit` (R30). -/
def Part.heldFor (s : Part) (x : Waiting) (limit : Nat) : Bool :=
  match x.hold with
  | some t => decide (t + limit ≤ s.now)
  | none => false

/-- The transaction of a number, while it is unanswered. -/
def Part.findTxn (s : Part) (id : Nat) : Option Waiting := s.bus.waiting.find? (fun x => x.id == id)

/-- Decides the answer OKAY with `data` for transaction `id`. -/
def Part.okay (s : Part) (id : Nat) (data : List Byte) : Part :=
  match s.findTxn id with
  | some x => s.setWait id (.ready ⟨x.txn.tag, true, none, data⟩)
  | none => s

/-- Decides FAULT from memory for transaction `id`; it is no refusal (R24). -/
def Part.memoryFault (s : Part) (id : Nat) : Part :=
  match s.findTxn id with
  | some x => s.setWait id (.ready ⟨x.txn.tag, false, none, if x.txn.write then [] else zeros (8 * x.txn.beats)⟩)
  | none => s

/-- Refuses transaction `id`: FAULT with a reason, the count and the last refusal record (R21, R33). -/
def Part.refuse (s : Part) (id : Nat) (r : Reason) (range : Range) : Part :=
  match s.findTxn id with
  | some x =>
    let s := s.setWait id (.ready ⟨x.txn.tag, false, some r, if x.txn.write then [] else zeros (8 * x.txn.beats)⟩)
    { s with path := { s.path with
        refusals := wrap32 (s.path.refusals + 1)
        lastRefusal := some ⟨r, range, x.txn.tag, x.txn.addr⟩ } }
  | none => s

/-! ## The Parameter Block (R28, R179) -/

/-- The guarded codes (section 10.3). -/
def guardedTable : List Nat := [0x10, 0x33, 0x42, 0x53, 0x54, 0x71, 0x72, 0x7F]

/-- Whether a transaction is a write that enables a byte of the Parameter Block (R28). -/
def Part.writesParameters (s : Part) (t : Txn) : Bool :=
  t.write && within t.addr.toNat s.areaBase 4096 && t.enablesAny (t.addr.toNat - s.areaBase) 0x40 64

/-- Whether a directive whose Parameter Block is read is BUSY and memory has not answered that read (R28). -/
def Part.readingParameters (s : Part) : Bool :=
  match s.unit.slot with
  | .busy _ _ .writes | .busy _ _ .parameter => true
  | _ => false

/-- Whether a Parameter Block write that was accepted since the slot last entered PENDING waits for memory (R179). -/
def Part.writesUnanswered (s : Part) : Bool :=
  s.bus.waiting.any (fun x => x.wait == .line && decide (s.unit.pendingFrom ≤ x.id) && s.writesParameters x.txn)

end Sys2Proof.Machine
end

