-- ==== Sys2Proof/Machine/Flags.lean ====
section
/-! DEFINITION. The Condition Word: latched and level bits, and the ATTN rule (R27, R182, R183). -/

namespace Sys2Proof.Machine

/-- One bit of the Condition Word when `b` holds. -/
def bitIf (b : Bool) (n : Nat) : BitVec 64 := if b then 1#64 <<< n else 0#64

/-- The level bits as they stand (R182, section 11.5). -/
def Part.levelBits (s : Part) : BitVec 64 :=
  bitIf s.library.openL 32 ||| bitIf s.library.openR 33
  ||| bitIf ((s.loc mailSlot).occ == .occupied) 34
  ||| bitIf ((s.lane .l0).state == .fault) 35 ||| bitIf ((s.lane .l1).state == .fault) 36
  ||| bitIf (s.changer.state == .faulted) 37

/-- The bits of the Condition Word and the Condition Mask that have a condition (section 11.5). -/
def conditionBits : BitVec 64 := 0x3F0000FFFF#64

/-- The Condition Word (R182). -/
def Part.condition (s : Part) : BitVec 64 := s.unit.latched ||| s.levelBits

/-- Whether a masked cause of a pulse came about between two states: a masked bit went from clear to set, or a masked level
bit fell and rose again in between (R183). -/
def pulseCause (old s : Part) : Bool :=
  (((s.condition &&& ~~~ old.condition) ||| (s.rose &&& ~~~ old.rose)) &&& s.unit.mask) != 0#64

/-- ATTN judged: in level mode it follows the masked Condition Word; in pulse mode a cause starts a pulse unless one
is being driven (R183). A pulse being driven runs to its end, also when a write makes the mask all zero (DESIGN CHOICE, log
entry 43). -/
def Part.driveAttn (s : Part) (cause : Bool) : Part :=
  let a : Attn :=
    if s.unit.pulseMode then
      match s.unit.attn with
      | .pulse t => .pulse t
      | _ => if cause then .pulse s.now else .released
    else if (s.condition &&& s.unit.mask) != 0#64 then .level else .released
  { s with unit := { s.unit with attn := a } }

/-- One pass over the unanswered transactions, oldest first: an answer goes back when no earlier transaction of its tag
is unanswered (R22); a Condition Word read is served at that event and clears the latched bits it returned (R27, R182).
Gives what stays, the answers and the latched bits left. -/
def deliverFrom (level : BitVec 64) : List Waiting → List (BitVec 4) → BitVec 64 → List Waiting × List Answer × BitVec 64
  | [], _, latched => ([], [], latched)
  | x :: xs, blocked, latched =>
    match (if blocked.contains x.txn.tag then Wait.line else x.wait) with
    | .ready a =>
      let (ws, as, l) := deliverFrom level xs blocked latched
      (ws, a :: as, l)
    | .cond =>
      let (ws, as, l) := deliverFrom level xs blocked 0#64
      (ws, ⟨x.txn.tag, true, none, leBytes 8 (latched ||| level).toNat⟩ :: as, l)
    | _ =>
      let (ws, as, l) := deliverFrom level xs (x.txn.tag :: blocked) latched
      (x :: ws, as, l)

/-- The answers that can go back go back (R22). -/
def Part.deliver (s : Part) : Part :=
  let (ws, as, l) := deliverFrom s.levelBits s.bus.waiting [] s.unit.latched
  { s with
    bus := { s.bus with waiting := ws, answered := s.bus.answered ++ as }
    unit := { s.unit with latched := l } }

end Sys2Proof.Machine
end

