-- ==== Sys2Proof/Machine/Status.lean ====
section
/-! DEFINITION. The Status Block: the bytes of every section, its updates, and what ends every event: sections written, answers sent, the arbiter's choice, ATTN (R185, section 11.6, R37, R183). -/

namespace Sys2Proof.Machine

/-! ## Code tables (section 11.6) -/

/-- Stream state codes. -/
def StreamState.num : StreamState → Nat
  | .closed => 0 | .idle => 1 | .record => 2 | .ending => 3 | .faulted => 4
/-- Stream fault cause codes. -/
def StreamCause.num : StreamCause → Nat
  | .none => 0 | .limit => 1 | .cancelled => 2
/-- Lane state codes. -/
def LaneState.num : LaneState → Nat
  | .empty => 0 | .waitingMedia => 1 | .loading => 2 | .identifying => 3 | .labelling => 4 | .append => 5
  | .closing => 6 | .unloading => 7 | .idle => 8 | .reading => 9 | .fault => 10
/-- Lane fault codes. -/
def LaneCode.num : LaneCode → Nat
  | .none => 0 | .memory => 1 | .echoTimeout => 2 | .returnTimeout => 3 | .noCartridge => 4 | .media => 5
  | .isProtected => 6 | .endOfMedia => 7 | .changer => 8 | .noHome => 9 | .tableFull => 10
/-- Short return reason codes (section 11.3). -/
def FormatterFault.num : FormatterFault → Nat
  | .media => 1 | .noCartridge => 2 | .isProtected => 3 | .endOfMedia => 4
/-- Role codes. -/
def Role.num : Role → Nat
  | .single => 0 | .primary => 1 | .twin => 2
/-- Changer state codes. -/
def ChangerState.num : ChangerState → Nat
  | .offline => 0 | .ready => 1 | .busy => 2 | .faulted => 3
/-- Changer failure cause codes; the code of a full queue is a free value. -/
def FailCause.byte : FailCause → Byte
  | .sourceEmpty => 1 | .targetFull => 2 | .doorOpen => 3 | .mechanism => 4 | .timeout => 5 | .magazineOpen => 6
  | .changerFault => 7 | .noHome => 8 | .parameter => 9 | .state => 10 | .loadCheck => 11
  | .queueFull => Config.queueFullCode
/-- Occupancy codes. -/
def Occupancy.num : Occupancy → Nat
  | .empty => 0 | .occupied => 1 | .unknown => 2
/-- Cartridge state and state mirror codes. -/
def CartState.num : CartState → Nat
  | .scratch => 1 | .opened => 2 | .full => 3 | .interrupted => 4 | .suspect => 5 | .foreign => 6 | .unlabelled => 7
/-- Suspect cause codes. -/
def SuspectCause.num : SuspectCause → Nat
  | .none => 0 | .rewriteLimit => 1 | .media => 2 | .isProtected => 3 | .verifyFailed => 4
/-- Restore phase codes. -/
def RestorePhase.num : RestorePhase → Nat
  | .waitingVerify => 0 | .fetching => 1 | .identifying => 2 | .reading => 3 | .waitingDest => 4 | .ending => 5
/-- Verify phase codes. -/
def VerifyPhase.num : VerifyPhase → Nat
  | .fetching => 0 | .identifying => 1 | .reading => 2 | .ending => 3 | .suspended => 4
/-- Job result codes. -/
def JobResult.num : JobResult → Nat
  | .none => 0 | .complete => 1 | .inUse => 2 | .volumeMissing => 3 | .wrongVolume => 4 | .memory => 5
  | .laneFault => 6 | .cancelled => 7
/-- Record result codes; an UNSTARTED report is recorded as INCOMPLETE when it is not DAMAGED (R160). -/
def RecResult.num : RecResult → Nat
  | .done => 0 | .recordCheck => 1 | .format => 2 | .damaged => 3 | .incomplete => 4 | .isPartial => 5 | .unstarted => 4
/-- Refusal reason codes. -/
def Reason.num : Reason → Nat
  | .burst => 1 | .strobe => 2 | .guarded => 3 | .direction => 4 | .sequence => 5 | .overrun => 6 | .noRecord => 7
  | .stall => 8 | .order => 9 | .memory => 10
/-- Refusal range codes. -/
def Range.num : Range → Nat
  | .intake s => s.val | .send k => 8 + k.num | .ret k => 10 + k.num | .directive => 12 | .pool => 13 | .other => 14
/-- Outcome result codes (section 11.5). -/
def Result.num : Result → Nat
  | .accepted => 0 | .busy => 1 | .state => 2 | .parameter => 3 | .overlap => 4 | .sequence => 5 | .notFound => 6
  | .full => 7 | .limit => 8 | .unknownCode => 9

/-! ## Section bodies (section 11.6): the bytes between head and tail count -/

/-- A section's offset in the directive area and its size. -/
def Section.place : Section → Nat × Nat
  | .stream s => (0x200 + 32 * s.val, 32)
  | .lane k => (0x300 + 64 * k.num, 64)
  | .pool => (0x380, 32)
  | .changer => (0x3A0, 64)
  | .map => (0x3E0, 592)
  | .restore k => (0x630 + 96 * k.num, 96)
  | .verify k => (0x6F0 + 96 * k.num, 96)
  | .path => (0x7B0, 32)
  | .unit => (0x7D0, 48)

/-- A stream's section. -/
def streamBody (x : Stream) : List Byte :=
  let (n, e) := match x.nextRecord with
    | .num n => (n, false)
    | .exhausted => (0, true)
  [byteOf x.state.num, byteOf x.cause.num,
   match x.lane with | some k => byteOf k.num | none => 0xFF, boolByte e]
  ++ leBytes 8 x.taken ++ leBytes 4 n

/-- A lane's section. While a restore waits for a running verify (WAITING VERIFY), the read job byte names the verify, which still
has the lane's chunks and its unpack context; R110 and R177 do not say which of the two it names then (DESIGN CHOICE, log entry
54). Beside a suspended verify it names the restore. -/
def laneBody (l : Lane) : List Byte :=
  let job := match l.restore, l.verify with
    | some r, some _ => if r.phase = .waitingVerify then 2 else 1
    | some _, none => 1
    | none, some _ => 2
    | none, none => 0
  let v := l.volume
  [byteOf l.state.num, byteOf l.code.num, boolByte l.held, byteOf l.run.role.num]
  ++ (match v with | some v => labelBytes v.label | none => zeros 8)
  ++ leBytes 4 (match v with | some v => v.nextSeq - 1 | none => 0)
  ++ leBytes 4 (match v with | some v => v.positions | none => 0)
  ++ leBytes 4 (match v with | some v => v.verified | none => 0)
  ++ [byteOf l.sent.length, byteOf l.queue.length,
      match l.lastFault with | some f => byteOf f.num | none => 0, byteOf job]
  ++ leBytes 2 l.run.set ++ leBytes 2 (match v with | some v => v.number | none => 0)
  ++ leBytes 4 l.unexpected

/-- The pool section (R65). -/
def poolBody (p : Pool) : List Byte :=
  match p.geometry with
  | some g => [1, byteOf g.count, byteOf p.free.length, 0] ++ leBytes 4 g.base
  | none => [0, 0, 0, 0] ++ zeros 4

/-- A location's number, 0 for none. -/
def locNum? : Option Loc → Nat
  | some p => locNum p
  | none => 0

/-- Whether an entry is of directive class (R146). -/
def Job.isDirective : Job → Bool
  | .load .. | .home _ => false
  | _ => true

/-- Whether an inventory's turn to scan `p` is skipped (R148). -/
def Part.scanSkipped (s : Part) (p : Loc) : Bool :=
  match bayLane p with
  | some k => !(s.present k && (s.loc p).occ == .unknown && (s.lane k).state == .empty)
  | none => s.inOpenMagazine p

/-- The location that the inventory in progress scans next, by the map and the lanes as they stand: the first one left that
it does not skip (R148, R151). -/
def Part.nextScanned (s : Part) : Option Loc :=
  s.changer.queue.findSome? fun e => match e.job with
    | .inventory toScan => if e.started then toScan.find? (fun p => !s.scanSkipped p) else none
    | _ => none

/-- The changer section (R151). -/
def changerBody (s : Part) : List Byte :=
  let c := s.changer
  let (kind, a, b) := match c.out with
    | some o => match o.command with
      | .move s t => (0x21, locNum s, locNum t)
      | .scan p => (0x22, locNum p, 0)
      | .query => (0x23, 0, 0)
    | none => (0, 0, 0)
  [byteOf c.state.num, byteOf c.queue.length, byteOf (c.queue.filter (·.job.isDirective)).length, byteOf (locNum? s.nextScanned),
   byteOf kind, byteOf a, byteOf b, 0]
  ++ leBytes 4 c.discards ++ leBytes 4 c.strays
  ++ (match c.lastFailure with
    | some f =>
      let (n, k) := match f.entry with
        | .load k => (1, k.num) | .home k => (2, k.num) | .move => (3, 0) | .inventory => (4, 0) | .scanM => (5, 0)
      [byteOf n, byteOf k, byteOf (locNum? f.source), byteOf (locNum? f.target), f.cause.byte]
    | none => zeros 5)

/-- The home slot of a location (R130): a slot's is itself, M's is M, a bay's is the one its record holds. -/
def homeOf (p : Loc) (r : LocRecord) : Option Nat := if p.val < 25 then some (locNum p) else r.home

/-- A location record in the Status Block (section 11.6). -/
def locBytes (p : Loc) (r : LocRecord) : List Byte :=
  [byteOf r.occ.num, match r.state with | some c => byteOf c.num | none => 0,
   byteOf ((if r.verified then 1 else 0) + (if r.label.isSome then 2 else 0)),
   byteOf ((homeOf p r).getD 0)]
  ++ (match r.label with | some l => labelBytes l | none => zeros 8)

/-- The Magazine Map section (R151). -/
def mapBody (m : Library) : List Byte :=
  [byteOf ((if m.openL then 1 else 0) + (if m.openR then 2 else 0)), byteOf m.holds.length, 0, 0]
  ++ locs.flatMap (fun p => locBytes p m.records[p])
  ++ m.holds.flatMap labelBytes

/-- The restore section of a lane (R166); after the end of a job it keeps the last figures (R152). The result is shown once
the job has ended, not while it waits in ENDING for its chunk (R165). A write pointer of 2^32, at the top of the address
space, and an expected sequence of 2^32 show their low 32 bits (DESIGN CHOICE, log entry 40). R152 and R166 give the counts no
range and section 11.6 a field of fixed width: a count that outgrows its field goes on counting and shows its low bits (DESIGN
CHOICE, log entry 58). -/
def restoreBody (l : Lane) : List Byte :=
  match (l.restore <|> l.lastRestore) with
  | none => []
  | some j =>
    let v := j.volumes[j.current]?
    [byteOf ((if l.restore.isSome then 1 else 0) + (if j.firstFailed.isSome then 2 else 0)),
     byteOf j.phase.num, byteOf (if l.restore.isSome then 0 else j.result.num), byteOf j.stream.val]
    ++ leBytes 2 j.set ++ [byteOf j.pref, boolByte j.twinCopy] ++ leBytes 4 j.reqFirst ++ leBytes 4 j.reqLast
    ++ (match v with | some v => labelBytes v.label | none => zeros 8)
    ++ leBytes 2 (match v with | some v => v.number | none => 0) ++ [0, 0]
    ++ leBytes 4 j.expected ++ leBytes 4 j.pointer ++ leBytes 4 j.done ++ leBytes 4 j.failed
    ++ leBytes 4 (j.firstFailed.getD 0) ++ leBytes 4 j.damaged ++ leBytes 4 j.lost ++ leBytes 8 j.written

/-- The verify section of a lane (R177); after the end of a job it keeps the last figures (R167). An expected sequence of 2^32,
after a last verified sequence of 2^32 - 1, shows its low 32 bits (DESIGN CHOICE, log entry 40), and so does a count above
2^32 - 1 (DESIGN CHOICE, log entry 58). -/
def verifyBody (l : Lane) : List Byte :=
  match (l.verify <|> l.lastVerify) with
  | none => []
  | some j =>
    let (fs, fr, fn) := match j.firstFailure with
      | some (s, n, r) => (s.val, r.num, n)
      | none => (0, 0, 0)
    [byteOf ((if l.verify.isSome then 1 else 0) + (if j.firstFailure.isSome then 2 else 0)),
     byteOf j.phase.num, byteOf j.result.num, 0]
    ++ labelBytes j.label ++ leBytes 4 j.expected ++ leBytes 4 j.verified ++ leBytes 4 j.chunks
    ++ leBytes 4 (j.verified / 64 + 1) ++ leBytes 4 j.accepted ++ leBytes 4 j.damaged ++ leBytes 4 j.lost
    ++ leBytes 4 j.skipped ++ leBytes 4 j.done ++ leBytes 4 j.failed ++ leBytes 4 j.partials
    ++ [byteOf fs, byteOf fr, 0, 0] ++ leBytes 4 fn

/-- The path refusal section (R33). An empty last refusal record shows the range code 14, none of the windows and ranges, and 0 in
its other fields (DESIGN CHOICE, log entry 42). -/
def pathBody (p : Path) : List Byte :=
  (match p.lastRefusal with
    | some r => [byteOf r.reason.num, byteOf r.range.num, byteOf r.tag.toNat, 0] ++ leBytes 4 r.addr.toNat
    | none => [0, 14, 0, 0] ++ zeros 4)
  ++ leBytes 4 p.refusals

/-- The Outcome Word (section 11.5). -/
def outcomeBytes (o : Outcome) : List Byte :=
  [byteOf o.code, byteOf o.result.num, boolByte o.lost, 0] ++ leBytes 2 o.detail ++ leBytes 2 o.count ++ zeros 8

/-- The state and code that the directive section shows (R185). -/
def DirSlot.view : DirSlot → Nat × Nat
  | .ready => (0, 0)
  | .pending c => (1, c)
  | .busy c _ _ => (2, c)

/-- The directive section (R185). -/
def unitBody (u : DirUnit) : List Byte :=
  [byteOf u.slot.view.1, byteOf u.slot.view.2, boolByte u.pulseMode, 0] ++ leBytes 8 u.mask.toNat ++ outcomeBytes u.outcome

/-- The contents of a section, without its counts, at the event it is issued (R185). -/
def Part.sectionBody (s : Part) (x : Section) : List Byte :=
  padTo (x.place.2 - 8) <| match x with
    | .stream i => streamBody (s.stream i)
    | .lane k => laneBody (s.lane k)
    | .pool => poolBody s.pool
    | .changer => changerBody s
    | .map => mapBody s.library
    | .restore k => restoreBody (s.lane k)
    | .verify k => verifyBody (s.lane k)
    | .path => pathBody s.path
    | .unit => unitBody s.unit

/-! ## Updates (R185) -/

/-- Every section, in the order of R185. -/
def allSections : List Section :=
  streamIds.map Section.stream ++ [.lane .l0, .lane .l1, .pool, .changer, .map, .restore .l0, .restore .l1,
    .verify .l0, .verify .l1, .path, .unit]

/-- The update state of a section. -/
def Part.sectionState (s : Part) (x : Section) : SectionState :=
  (s.status.find? (fun t => t.sec == x)).getD ⟨x, 0, false, false⟩

/-- `s` with the update state of a section replaced. -/
def Part.setSection (s : Part) (t : SectionState) : Part :=
  { s with status := s.status.map (fun u => if u.sec = t.sec then t else u) }

/-- Issues one update of a section: its contents between the head and tail count, both raised by 1 (R185). -/
def Part.issue (s : Part) (x : Section) : Part :=
  let t := s.sectionState x
  let n := wrap32 (t.count + 1)
  (s.setSection { t with count := n, unanswered := true, stale := false }).pushWrites
    (fun last => .status x last) (s.areaBase + x.place.1)
    (leBytes 4 n ++ s.sectionBody x ++ leBytes 4 n)

/-- Writes a section, or marks it stale while an update of it is unanswered (R185). -/
def Part.writeSection (s : Part) (x : Section) : Part :=
  let t := s.sectionState x
  if t.unanswered then s.setSection { t with stale := true } else s.issue x

/-- Whether an event of the kind a section's owner names came about between two states: R60, R110, R65, R151, R166,
R177, R33, R178. While a restore waits for a verify job, the chunks are the verify's (R174). The events that leave no such trace mark the section themselves (`Part.touch`).
A change of what a section shows that no owner's rule names as an event of the section, such as a Condition Mask write in the
directive section, does not count as the section changing: it has nothing written, and makes no unanswered update stale (DESIGN
CHOICE, log entry 52). -/
def sectionChanged (old s : Part) (x : Section) : Bool :=
  match x with
  | .stream i => (old.stream i).state != (s.stream i).state
  | .lane k =>
    let a := old.lane k
    let b := s.lane k
    a.state != b.state || a.code != b.code || a.queue.length != b.queue.length || a.sent.length != b.sent.length
      || a.unexpected != b.unexpected || a.volume.map (·.positions) != b.volume.map (·.positions)
  | .pool => old.pool.geometry != s.pool.geometry || old.pool.free.length != s.pool.free.length
  | .changer => changerBody old != changerBody s
  | .map => old.library != s.library
  | .restore k =>
    let a := old.lane k
    let b := s.lane k
    a.restore.map (fun j => (j.phase, j.done, j.failed)) != b.restore.map (fun j => (j.phase, j.done, j.failed))
      || (a.restore.any (fun j => j.phase != .waitingVerify) && a.access.chunk.isSome && a.access.chunk != b.access.chunk)
  | .verify k =>
    let a := (old.lane k).verify
    let b := (s.lane k).verify
    a.map (fun j => (j.phase, j.chunks, j.done, j.failed, j.partials))
      != b.map (fun j => (j.phase, j.chunks, j.done, j.failed, j.partials))
  | .path => old.path.refusals != s.path.refusals || old.path.lastRefusal != s.path.lastRefusal
  | .unit => old.unit.slot.view != s.unit.slot.view

/-- The sections whose owners changed state at the event are written, in the order of R185; what the event marked is used
up. -/
def Part.writeSections (old s : Part) : Part :=
  let xs := allSections.filter (fun x => s.touched.contains x || sectionChanged old s x)
  xs.foldl Part.writeSection { s with touched := [], rose := 0 }

/-! ## The arbiter (R37) -/

/-- When the port is free, the next transaction goes: the line not served last when both wait, else the one that does. -/
def Part.grant (s : Part) : Part :=
  match s.bus.port with
  | some _ => s
  | none =>
    match s.bus.clientLine, s.bus.ownLine with
    | [], [] => s
    | (i, t) :: rest, [] =>
      { s with bus := { s.bus with clientLine := rest, port := some (.client i t), lastServed := .client } }
    | [], a :: rest =>
      { s with bus := { s.bus with ownLine := rest, port := some (.own a false), lastServed := .own } }
    | (i, t) :: crest, a :: orest =>
      match s.bus.lastServed with
      | .own => { s with bus := { s.bus with clientLine := crest, port := some (.client i t), lastServed := .client } }
      | .client => { s with bus := { s.bus with ownLine := orest, port := some (.own a false), lastServed := .own } }

/-- What ends every event: sections written (R185), answers sent (R22, R27), the arbiter's choice (R37), ATTN (R183).
Own accesses that arise at the very event that frees the port take part in the arbiter's choice at that event
(DESIGN CHOICE, log entry 7). -/
def report (old s : Part) : Part :=
  let cause := pulseCause old s
  let s := Part.writeSections old s
  (s.deliver.grant).driveAttn cause

end Sys2Proof.Machine
end

