-- ==== Sys2Proof/Machine/Reset.lean ====
section
/-! DEFINITION. The hard reset values of every block, the changer's command frames, and the part right after RESETN goes high (R39, R41, R59, R61, R69, R85, R109, R129, R130, R137, R150, R188). -/

namespace Sys2Proof.Machine

/-- A stream's CLOSED values (R41). -/
def Stream.blank : Stream :=
  { state := .closed, lane := none, taken := 0, nextRecord := .num 0, current := none, declared := 0, recTaken := 0,
    intake := [], pack := Packing.empty, placed := 0, nextIndex := .num 0, seg := .empty, waiting := [], flush := false,
    idle := none, cause := .none }

/-- An assembly state after a reset (R70). -/
def Assembly.blank : Assembly := { offers := [], openBlock := none, remainder := none, mark := none, timer := none }

/-- The unset pool (R61). -/
def Pool.unset : Pool := { geometry := none, buffers := [], free := [], waiters := [], nextBlk := 0 }

/-- The run items at their none values (R111). -/
def Run.none : Run :=
  { isOpen := false, role := .single, set := 0, nextVolume := 0, namedSlot := 0, stopAfter := false, chosen := Option.none,
    ownCapacity := 0, limit := 0, warned := false, due := 0, eovList := [], absentFrom := 0, capacities := [] }

/-- An unpack context with every slot EMPTY (R14). -/
def Unpack.empty (output : Bool) : Unpack := { output := output, slots := Vector.replicate 8 .empty }

/-- No access of a read job to a cartridge. -/
def Access.none : Access :=
  { chunk := Option.none, identity := Option.none, loan := .none, source := Option.none, walk := Option.none }

/-- A lane context after a hard reset (R85). -/
def Lane.blank : Lane :=
  { state := .empty, code := .none, held := false, queue := [], pending := none, owedEov := none, sent := [], stale := [],
    serving := none, nextServing := 0, outstanding := none, ret := none, cut := none, buffer := none, volume := none, run := Run.none,
    lending := none, restore := none, lastRestore := none, verify := none, lastVerify := none, access := Access.none,
    unpack := Unpack.empty false, unexpected := 0, lastFault := none }

/-- A location record after a hard reset (R130). -/
def LocRecord.unknown : LocRecord := { occ := .unknown, label := none, state := none, verified := false, home := none }

/-- The Magazine Map and Hold List after a hard reset (R150). -/
def Library.blank : Library :=
  { records := Vector.replicate 27 LocRecord.unknown, openL := false, openR := false, holds := [] }

/-- The path settings after a hard reset (R33, R34, R36, R39). -/
def Path.blank : Path :=
  { windows := Vector.replicate 12 none, holdLimit := 10, idleTime := 20, refusals := 0, lastRefusal := none }

/-- The settings in force after a hard reset (R39). -/
def InForce.blank : InForce := { windows := Vector.replicate 12 none, holdLimit := 10, idleTime := 20, pool := none }

/-- The bus with no transaction; the client line counts as served last (R37, R39). -/
def Bus.blank : Bus :=
  { waiting := [], nextId := 0, clientLine := [], ownLine := [], port := none, lastServed := .client, answered := [] }

/-- The Outcome Word copy after a hard reset (R181). -/
def Outcome.zero : Outcome := { code := 0, result := .accepted, lost := false, detail := 0, count := 0 }

/-- The Directive Unit after a hard reset, with the ATTN mode of the ATM strap (R188, R40). -/
def DirUnit.blank (atm : Bool) : DirUnit :=
  { slot := .ready, pendingFrom := 0, outcome := Outcome.zero, latched := 0, mask := 0, pulseMode := atm, attn := .released }

/-- A command's kind and parameters (R139, section 11.4). -/
def Command.parts : Command → Nat × List Nat
  | .move s t => (0x21, [locNum s, locNum t])
  | .scan p => (0x22, [locNum p])
  | .query => (0x23, [])

/-- A frame: SYNC, kind, length, parameters and the check that makes the 8-bit sum of all but SYNC equal 0 (R139). -/
def frame (kind : Nat) (params : List Nat) : List Byte :=
  let body := (kind :: params.length :: params).map byteOf
  0xA7 :: body ++ [0 - body.foldl (· + ·) 0]

/-- A command's frame. -/
def Command.frame (c : Command) : List Byte := Machine.frame c.parts.1 c.parts.2

/-- The answer timeout of a command (R139). -/
def Command.timeout : Command → Nat
  | .move .. => 120 * Config.second
  | .scan _ => 15 * Config.second
  | .query => 2 * Config.second

/-- The Changer Link right after a hard reset: OFFLINE, before its QUERY (R150). -/
def Changer.blank : Changer :=
  { state := .offline, queue := [], nextEntry := 0, out := none, querySent := 0, receiver := .hunting, discards := 0,
    strays := 0, lastFailure := none, sent := [] }

/-- Starts a command: its frame goes out on CTX and it becomes outstanding (R139). The change marks the changer section, since
another command may have ended at the same event (R151, R185). -/
def Part.send (s : Part) (c : Command) (entry : Option Nat) : Part :=
  Part.touch { s with changer := { s.changer with
      out := some { command := c, entry := entry, timer := none, afterReset := false }
      sent := s.changer.sent ++ [c.frame]
      querySent := match c with | .query => s.now | _ => s.changer.querySent } } .changer

/-- Every block at its hard reset values, with the straps sampled; nothing of the past remains but the records of the
answers given and the frames sent, and the time. -/
def Part.hardReset (s : Part) (dab : BitVec 4) (atm lnc : Bool) : Part :=
  { now := s.now, choice := s.choice
    pins := { resetLow := false, dab := dab, atm := atm, lnc := lnc }
    path := Path.blank
    force := InForce.blank
    bus := { Bus.blank with nextId := s.bus.nextId, answered := s.bus.answered }
    streams := Vector.replicate 8 Stream.blank
    pool := { Pool.unset with nextBlk := s.pool.nextBlk }
    assembly := ⟨Assembly.blank, Assembly.blank⟩
    lanes := ⟨Lane.blank, Lane.blank⟩
    twin := { on := false, primary := .l0 }
    span := []
    library := Library.blank
    changer := { Changer.blank with sent := s.changer.sent }
    unit := DirUnit.blank atm
    status := allSections.map (fun x => ⟨x, 0, false, false⟩)
    touched := [], rose := 0 }

/-- RESETN goes high (R39): every block reset, QUERY sent (R143), the zero Outcome Word written first and then every
Status Block section (R188, R185). -/
def Part.resetHigh (s : Part) (dab : BitVec 4) (atm lnc : Bool) : Part :=
  let s := (s.hardReset dab atm lnc).send .query none
  let s := s.pushWrites (fun _ => .zeroOutcome) (s.areaBase + 0x80) (outcomeBytes s.unit.outcome)
  let s := { s with touched := allSections }
  report s s

/-- A part before its first hard reset: only the counters, the time and the empty output records of it are used. -/
def Part.cold : Part :=
  { now := 0, choice := 0, pins := ⟨true, 0, false, true⟩, path := Path.blank, force := InForce.blank, bus := Bus.blank,
    streams := Vector.replicate 8 Stream.blank, pool := Pool.unset, assembly := ⟨Assembly.blank, Assembly.blank⟩,
    lanes := ⟨Lane.blank, Lane.blank⟩, twin := ⟨false, .l0⟩, span := [], library := Library.blank,
    changer := Changer.blank, unit := DirUnit.blank false, status := [], touched := [], rose := 0 }

/-- The part right after a hard reset with the straps of log entry 1: DAB 0, ATM 0, LNC 1. -/
def Part.reset : Part := Part.cold.resetHigh 0 false true

end Sys2Proof.Machine
end

