-- ==== Sys2Proof/Machine/State.lean ====
section
/-! DEFINITION. The state of the machine: everything the part holds and the queue of waiting commands; the reasons a step can stop. -/

namespace Sys2Proof.Machine

/-- The state: the part's own state and the commands that wait, first in, first out. -/
structure State extends Part where
  pending : List Instr
  deriving DecidableEq, Repr

/-- The reasons for a fault. There are none: the block has no stop, and whatever the manual calls a fault is a next
state. -/
inductive Fault where
  deriving DecidableEq, Repr

/-- The reasons for a refusal. -/
inductive Refusal where
  /-- A command without a meaning; safe. No arm of `exec` raises it. -/
  | notModelled (mnemonic : String)
  deriving DecidableEq, Repr

/-- The machine right after a hard reset, with nothing waiting. -/
def State.reset : State := { Part.reset with pending := [] }

end Sys2Proof.Machine
end

