-- ==== Sys2Proof/Machine/Streams.lean ====
section
/-! DEFINITION. The stream contexts: intake, the segment buffer, the encoder's steps, stream faults (R41 to R60). -/

namespace Sys2Proof.Machine

/-! ## Intake (R29, R30, R47, R48) -/

/-- The first enabled byte and the count of enabled bytes, when they form one contiguous run (R29). -/
def enabledRun (strobes : List Bool) : Option (Nat × Nat) :=
  let lead := (strobes.takeWhile (! ·)).length
  let rest := strobes.drop lead
  let n := (rest.takeWhile (·)).length
  if n = 0 ∨ (rest.drop n).any (·) then none else some (lead, n)

/-- What a stream says to an intake write (R47). -/
inductive Verdict where
  | take
  | refuse (r : Reason)
  | hold
  deriving DecidableEq, Repr

/-- The stream's judgement of an intake write of `c` bytes at window offset `off`; `size` is the window's size (R47). -/
def Stream.judge (x : Stream) (size off c : Nat) : Verdict :=
  if x.state ≠ .record then .refuse .noRecord
  else if off ≠ x.taken % size then .refuse .sequence
  else if (x.declared ≠ 0 ∧ x.declared < x.recTaken + c) ∨ Config.maxRaw < x.recTaken + c then .refuse .overrun
  else if Config.intakeBytes < x.intake.length + c then .hold
  else .take

/-- The bytes a write enables, in address order. -/
def enabledBytes (t : Txn) : List Byte := ((t.strobes.zip t.data).filter (·.1)).map (·.2)

/-- A write is taken (R48): the bytes join the intake buffer, the counts rise, a running idle timer starts again, and
the record ends when its declared length is reached. -/
def Part.takeIntake (s : Part) (i : Fin 8) (bytes : List Byte) : Part :=
  s.modStream i (fun x =>
    let n := x.recTaken + bytes.length
    { x with
      intake := x.intake ++ bytes
      taken := (x.taken + bytes.length) % 2 ^ 64
      recTaken := n
      idle := x.idle.map (fun _ => s.timer s.idlePeriod)
      state := if x.declared ≠ 0 ∧ n = x.declared then .ending else x.state })

/-- The size of a stream's intake window, 0 when unset. -/
def Part.intakeSize (s : Part) (i : Fin 8) : Nat :=
  match s.path.windows[i.castLE (by omega : 8 ≤ 12)] with
  | some w => w.size
  | none => 0

/-- Held intake writes of stream `i`, oldest first, with their offsets. -/
def Part.heldIntake (s : Part) (i : Fin 8) : List (Waiting × Nat) :=
  s.bus.waiting.filterMap fun x =>
    match x.wait with
    | .intake j _ off => if j = i then some (x, off) else none
    | _ => none

/-- Held writes judged again, the oldest first, until one stays held (R30, R47). -/
def rejudgeFrom (i : Fin 8) : List (Waiting × Nat) → Part → Part
  | [], s => s
  | (x, off) :: rest, s =>
    match (s.stream i).judge (s.intakeSize i) off (enabledBytes x.txn).length with
    | .hold => s
    | .take => rejudgeFrom i rest ((s.takeIntake i (enabledBytes x.txn)).okay x.id [])
    | .refuse r => rejudgeFrom i rest (s.refuse x.id r (.intake i))

/-- The stream's held writes are judged again: room appeared or the stream changed state (R30). -/
def Part.rejudge (s : Part) (i : Fin 8) : Part := rejudgeFrom i (s.heldIntake i) s

/-- An intake write handed to stream `i` (R29, R30, R47): held behind a held one, else judged. -/
def Part.intakeWrite (s : Part) (i : Fin 8) (id : Nat) (t : Txn) (off : Nat) : Part :=
  let hold := fun (s : Part) => s.hold id (.intake i s.holdPeriod off)
  if (s.heldIntake i).isEmpty then
    match (s.stream i).judge (s.intakeSize i) off (enabledBytes t).length with
    | .hold => hold s
    | .take => (s.takeIntake i (enabledBytes t)).okay id []
    | .refuse r => s.refuse id r (.intake i)
  else hold s

/-! ## Segments (R51 to R55) -/

/-- A closed segment joins the tail of its bound lane's offer queue (R53, R71). -/
def Part.offer (s : Part) (i : Fin 8) : Part :=
  match (s.stream i).lane with
  | some k => s.modAsm k (fun a => { a with offers := a.offers ++ [i] })
  | none => s

/-- The stream's segment closes as `g`: the idle timer stops, the section is written, the segment is offered (R51, R54, R60). -/
def Part.closeSegment (s : Part) (i : Fin 8) (g : Segment) : Part :=
  ((s.modStream i (fun x => { x with seg := .closed g, idle := none })).touch (.stream i)).offer i

/-- An OPEN segment closes as non-last (R45, R54, R55); any other segment buffer is left as it is. -/
def Part.closeOpenSegment (s : Part) (i : Fin 8) : Part :=
  match (s.stream i).seg with
  | .filling g => s.closeSegment i g
  | _ => s

/-- What the stream drops when its record is given up: packing state, intake, segment, waiting item, flush, timer (R58). -/
def Stream.dropped (x : Stream) : Stream :=
  { x with pack := Packing.empty, intake := [], seg := .empty, waiting := [], flush := false, idle := none, current := none }

/-- A stream enters FAULTED with a cause; writes it held are judged again (R58, R30). -/
def Part.faultStream (s : Part) (i : Fin 8) (c : StreamCause) : Part :=
  ((s.modStream i (fun x => { x.dropped with state := .faulted, cause := c })).latch .streamFault).rejudge i

/-- Tries to place an item in the segment buffer (R51, R52, R57). Says whether it was placed, or the stream faulted. -/
def Part.placeItem (s : Part) (i : Fin 8) (it : Item) : Part × Bool :=
  let x := s.stream i
  match it, x.seg with
  | .token t, .empty =>
    match x.nextIndex with
    | .exhausted => (s.faultStream i .limit, true)
    | .num n =>
      (s.setStream i { x with
        seg := .filling ⟨n, x.placed, n == 0, false, [t], 0⟩
        placed := x.placed + t.raw
        idle := some (s.timer s.idlePeriod) }, true)
  | .token t, .filling g =>
    if packedLength g.tokens + t.size ≤ Config.segmentBytes then
      (s.setStream i { x with seg := .filling { g with tokens := g.tokens ++ [t] }, placed := x.placed + t.raw }, true)
    else (s.closeSegment i g, false)
  | .token _, .closed _ => (s, false)
  | .recordEnd c, .filling g => (s.closeSegment i { g with last := true, check := c }, true)
  | .recordEnd c, .empty =>
    match x.nextIndex with
    | .exhausted => (s.faultStream i .limit, true)
    | .num n => (s.closeSegment i ⟨n, x.placed, n == 0, true, [], c⟩, true)
  | .recordEnd _, .closed _ => (s, false)

/-- Places items in order; the first that cannot be placed becomes the waiting item, and the rest wait behind it (R7, R51). -/
def Part.placeItems (i : Fin 8) : List Item → Part → Part
  | [], s => s.modStream i (fun x => { x with waiting := [] })
  | it :: rest, s =>
    match s.placeItem i it with
    | (s', true) => if (s'.stream i).state = .faulted then s' else Part.placeItems i rest s'
    | (s', false) => s'.modStream i (fun x => { x with waiting := it :: rest })

/-- Number `n` of the held intake writes reaches its hold limit: FAULT STALL, STREAM STALL latched, the stream's
section written; writes held behind it are judged (R30, R60). -/
def Part.holdTimer (s : Part) (n : Nat) : Part :=
  let held := s.bus.waiting.filterMap fun x =>
    match x.wait with
    | .intake i limit _ => some (x, i, limit)
    | _ => none
  match held[n]? with
  | some (x, i, limit) =>
    if s.heldFor x limit then ((((s.refuse x.id .stall (.intake i)).latch .streamStall).touch (.stream i))).rejudge i else s
  | none => s

/-! ## The encoder's steps (R7, R11, R49) -/

/-- The stream runs its encoder: a record is open or ending and no item waits (R7). -/
def Stream.encoding (x : Stream) : Bool := (x.state == .record || x.state == .ending) && x.waiting.isEmpty

/-- The record end handed to the segment buffer after any pending literal run (R11). -/
def Packing.endItems (k : Packing) : List Item :=
  (flushLiteral k.lit).map Item.token ++ [.recordEnd k.fold.value]

/-- The encoder takes one byte from the intake buffer (R7, R49); held writes are judged again for the room it makes (R30). -/
def Part.encoderTakeByte (s : Part) (i : Fin 8) : Part :=
  let x := s.stream i
  match x.intake with
  | b :: rest =>
    if x.encoding ∧ x.pack.look.length < 66 then
      let k := x.pack.takeByte b
      let k := if x.state = .ending ∧ rest = [] then k.setEnded else k
      (s.setStream i { x with intake := rest, pack := k }).rejudge i
    else s
  | [] => s

/-- One decision of the encoder, and the record end when it reaches R (R7 to R11). -/
def Part.encoderDecision (s : Part) (i : Fin 8) : Part :=
  let x := s.stream i
  let k := x.pack
  if x.encoding ∧ (k.look.length = 66 ∨ (k.ended ∧ k.look ≠ [])) then
    let (k', ts) := k.decision
    let items := ts.map Item.token
    if k'.ended ∧ k'.look = [] then
      Part.placeItems i (items ++ k'.endItems) (s.setStream i { x with pack := Packing.empty })
    else Part.placeItems i items (s.setStream i { x with pack := k' })
  else s

/-- The record of a stream that has just entered ENDING with an empty intake buffer: record ended is set at once, and
with no byte ahead the record end is handed over (R49, R11). -/
def Part.endIfTaken (s : Part) (i : Fin 8) : Part :=
  let x := s.stream i
  if x.intake = [] then
    let k := x.pack.setEnded
    if k.look = [] then Part.placeItems i (x.waiting ++ k.endItems) (s.setStream i { x with pack := Packing.empty })
    else s.setStream i { x with pack := k }
  else s

/-- A stream's idle timer runs out: the open segment closes as non-last (R54). -/
def Part.idleTimer (s : Part) (i : Fin 8) : Part :=
  if s.ranOut (s.stream i).idle then s.closeOpenSegment i else s

end Sys2Proof.Machine
end

