-- ==== Sys2Proof/Machine/Pool.lean ====
section
/-! DEFINITION. The block pool and the Block Assembler: buffers, copies, appends, splits, block close, release (R61 to R84). -/

namespace Sys2Proof.Machine

/-! ## Buffers -/

/-- A FREE buffer record, its block items cleared (R63, R67). -/
def Buffer.blank : Buffer :=
  { state := .free, origin := .l0, used := 0, segments := 0, fold := Fold.start, check := 0, summary := [],
    copies := ⟨none, none⟩, blk := 0 }

/-- The buffer record of index `b`. -/
def Part.buffer (s : Part) (b : Nat) : Buffer := s.pool.buffers.getD b Buffer.blank
/-- `s` with buffer record `b` replaced. -/
def Part.setBuffer (s : Part) (b : Nat) (x : Buffer) : Part :=
  { s with pool := { s.pool with buffers := s.pool.buffers.set b x } }
/-- The base address of buffer `b` (R61). -/
def Part.bufferBase (s : Part) (b : Nat) : Nat :=
  match s.pool.geometry with
  | some g => g.base + Config.blockBytes * b
  | none => 0
/-- Lane `k` leaves the buffer waiters (R64). -/
def Part.leaveWaiters (s : Part) (k : LaneId) : Part :=
  { s with pool := { s.pool with waiters := s.pool.waiters.filter (· != k) } }

/-- The lane's run is open, END RUN has not been taken on it and it is not in FAULT, and the pool is set (R70, R61). -/
def Part.taking (s : Part) (k : LaneId) : Bool :=
  (s.lane k).run.isOpen && !(s.lane k).run.stopAfter && (s.lane k).state != .fault && s.pool.geometry.isSome

/-- Lane `k` takes the buffer at the head of the free list as its open block, or joins the buffer waiters; the
pool section is rewritten as the free count changes (R72, R64, R65). -/
def Part.takeBuffer (s : Part) (k : LaneId) : Part :=
  match s.pool.free with
  | b :: rest =>
    let s := s.setBuffer b { Buffer.blank with state := .filling, origin := k, blk := s.pool.nextBlk }
    let s := { s with pool := { s.pool with free := rest, nextBlk := s.pool.nextBlk + 1 } }
    let s := ((s.leaveWaiters k).modAsm k (fun a => { a with openBlock := some b })).touch .pool
    if rest.length < 4 then s.latch .poolLow else s
  | [] =>
    if s.pool.waiters.contains k then s
    else { s with pool := { s.pool with waiters := s.pool.waiters ++ [k] } }

/-! ## Block close (R79, R80, R81) -/

/-- The marker "KDSB". -/
def markerBlock : List Byte := [0x4B, 0x44, 0x53, 0x42]
/-- The marker "KDSE". -/
def markerEnd : List Byte := [0x4B, 0x44, 0x53, 0x45]

/-- A block header (section 11.2). -/
def headerBytes (kind flags rewrites segments : Nat) (label : List Byte) (seq set volume used lane : Nat) : List Byte :=
  markerBlock ++ [byteOf kind, byteOf flags, byteOf rewrites, byteOf segments] ++ label ++ leBytes 4 seq ++ leBytes 2 set
  ++ leBytes 2 volume ++ leBytes 2 used ++ [byteOf lane] ++ zeros 5

/-- A block trailer (section 11.2). -/
def trailerBytes (payloadCheck headerCheck : Nat) : List Byte :=
  leBytes 4 payloadCheck ++ leBytes 4 headerCheck ++ markerEnd ++ zeros 4

/-- The lanes a block of lane `k` is owed to: in twin mode also the twin lane while its run is open (R80, R84). -/
def Part.owed (s : Part) (k : LaneId) : List LaneId :=
  if s.twin.on ∧ s.twin.primary = k ∧ (s.lane k.other).run.isOpen = true then [k, k.other] else [k]

/-- A closed block joins the tail of a lane's send queue, its copy record QUEUED (R80, R66). -/
def Part.handBlock (b : Nat) (s : Part) (k : LaneId) : Part :=
  let x := s.buffer b
  (s.setBuffer b { x with copies := x.copies.set k (some .queued) }).modLane k
    (fun l => { l with queue := l.queue ++ [⟨b, none, 0, false⟩] })

/-- The open block of lane `k` closes (R80); without an open block nothing happens (R79). -/
def Part.closeBlock (s : Part) (k : LaneId) : Part :=
  match (s.asm k).openBlock with
  | none => s
  | some b =>
    let x := s.buffer b
    let base := s.bufferBase b
    let fill := zeros (Config.payloadBytes - x.used)
    let fold := x.fold.addAll fill
    let kind := fun (_ : Bool) => OwnKind.poolWrite x.origin b x.blk
    let s := s.pushWrites kind (base + 32 + x.used) fill
    let s := s.setBuffer b { x with fold := fold, check := fold.value, state := .inFlight }
    let s := s.pushWrites kind base (headerBytes 2 0 0 x.segments (zeros 8) 0 0 0 x.used 0)
    let s := s.pushWrites kind (base + 32752) (trailerBytes fold.value 0)
    let s := (s.owed k).foldl (Part.handBlock b) s
    s.modAsm k (fun a => { a with openBlock := none, timer := none })

/-! ## Flushes (R78) -/

/-- A flush is taken for lane `k`: the open block closes at once when the offer queue is empty, else the mark goes to its tail (R78). -/
def Part.flushTaken (s : Part) (k : LaneId) : Part :=
  match (s.asm k).offers.getLast? with
  | none => (s.closeBlock k).modAsm k (fun a => { a with mark := none })
  | some i => s.modAsm k (fun a => { a with mark := some i })

/-! ## Appending (R71 to R76) -/

/-- The segment header of R76 (section 11.2). -/
def segmentHeader (stream record : Nat) (g : Segment) : List Byte :=
  [byteOf stream, byteOf ((if g.first then 1 else 0) + (if g.last then 2 else 0))] ++ leBytes 2 (packedLength g.tokens)
  ++ leBytes 4 record ++ leBytes 4 g.index ++ leBytes 8 g.rawOffset

/-- A segment as it is laid in a payload: header, packed bytes, record check with LAST (R76). -/
def segmentBytes (stream record : Nat) (g : Segment) : List Byte :=
  segmentHeader stream record g ++ packedBytes g.tokens ++ (if g.last then leBytes 4 g.check else [])

/-- An entry's payload size (R71). -/
def Segment.payloadSize (g : Segment) : Nat := 20 + packedLength g.tokens + (if g.last then 4 else 0)

/-- A stream summary with one more segment (R83). -/
def addSummary (stream : Fin 8) (first last : SegRef) : List Summary → List Summary
  | [] => [⟨stream, first, last⟩]
  | e :: es => if e.stream = stream then { e with last := last } :: es else e :: addSummary stream first last es

/-- A segment or part is written at the end of the open block's used payload (R73, steps 1 to 5). -/
def Part.appendPiece (s : Part) (k : LaneId) (b : Nat) (i : Fin 8) (g : Segment) : Part :=
  let x := s.buffer b
  let r := (s.stream i).current.getD 0
  let bytes := segmentBytes i.val r g
  let s := s.pushWrites (fun _ => .poolWrite x.origin b x.blk) (s.bufferBase b + 32 + x.used) bytes
  let s := s.setBuffer b { x with
    used := x.used + bytes.length
    segments := x.segments + 1
    fold := x.fold.addAll bytes
    summary := addSummary i ⟨r, g.index, g.first⟩ ⟨r, g.index, g.last⟩ x.summary }
  s.modAsm k (fun a => { a with timer := some (s.timer s.idlePeriod) })

/-- The stream hears the index of the final part: its segment buffer empties, its index advances, a LAST segment ends
the record, and waiting items are placed (R53). -/
def Part.reportAppended (s : Part) (i : Fin 8) (index : Nat) (last : Bool) : Part :=
  let x := s.stream i
  let x := { x with
    nextIndex := if index = 2 ^ 32 - 1 then .exhausted else .num (index + 1)
    seg := .empty
    flush := false
    state := if last then .idle else x.state
    current := if last then none else x.current }
  Part.placeItems i x.waiting (s.setStream i x)

/-- Whether the open block is nearly full: below 32 bytes left, or 255 segments (R77). -/
def Buffer.full (x : Buffer) : Bool := Config.payloadBytes - x.used < 32 || x.segments == 255

/-- The head entry's final part is appended to open block `b`; then the close causes, the flush mark, a flush request
and the report (R73, R77, R78, R53). Where the entry holds the flush mark and carries a flush request itself, the mark's close comes
first and the flush is taken after it, so that with entries behind it the mark goes to the tail and the block has closed here
(DESIGN CHOICE, log entry 56). -/
def Part.appendFinal (s : Part) (k : LaneId) (b : Nat) (i : Fin 8) (g : Segment) : Part :=
  let flush := (s.stream i).flush
  let s := s.appendPiece k b i g
  let s := s.modAsm k (fun a => { a with offers := a.offers.drop 1, remainder := none })
  let s := if (s.buffer b).full then s.closeBlock k else s
  let s := if (s.asm k).mark = some i then (s.closeBlock k).modAsm k (fun a => { a with mark := none }) else s
  let s := if flush then s.flushTaken k else s
  s.reportAppended i g.index g.last

/-- The leading tokens, whole and in order, whose packed sizes fit in `space`, and the rest (R74). -/
def splitTokens : Nat → List Token → List Token × List Token
  | _, [] => ([], [])
  | space, t :: ts =>
    if t.size ≤ space then
      let (a, b) := splitTokens (space - t.size) ts
      (t :: a, b)
    else ([], t :: ts)

/-- The piece at the head of lane `k`'s offer queue: the split remainder, or its stream's closed segment (R71). -/
def Part.headPiece (s : Part) (k : LaneId) : Option (Fin 8 × Segment) :=
  match (s.asm k).offers with
  | [] => none
  | i :: _ =>
    match (s.asm k).remainder with
    | some g => some (i, g)
    | none =>
      match (s.stream i).seg with
      | .closed g => some (i, g)
      | _ => none

/-- The open block of lane `k`, taking one when there is none (R71 step 1, R72). -/
def Part.withBlock (s : Part) (k : LaneId) : Part :=
  match (s.asm k).openBlock with
  | some _ => s
  | none => s.takeBuffer k

/-- A piece that surely fits goes to a new block, when a buffer is to be had (R74, R75). -/
def Part.appendToNew (s : Part) (k : LaneId) (i : Fin 8) (g : Segment) : Part :=
  let s := s.withBlock k
  match (s.asm k).openBlock with
  | some b => s.appendFinal k b i g
  | none => s

/-- The entry of a stream that met the index limit at a split: the rest is dropped, the entry leaves the queue, a mark
on it is cleared with its block, and the stream faults (R74, R78, R57). -/
def Part.dropLimited (s : Part) (k : LaneId) (i : Fin 8) : Part :=
  let s := s.modAsm k (fun a => { a with offers := a.offers.drop 1, remainder := none })
  let s := if (s.asm k).mark = some i then (s.closeBlock k).modAsm k (fun a => { a with mark := none }) else s
  s.faultStream i .limit

/-- The Block Assembler works on the head entry of lane `k`'s offer queue (R71): appended whole (R73), split at the last
token boundary that fits (R74), or put in a new block (R75). -/
def Part.workHead (s : Part) (k : LaneId) : Part :=
  if !s.taking k then s
  else
    match s.headPiece k with
    | none => s
    | some (i, g) =>
      let s := s.withBlock k
      match (s.asm k).openBlock with
      | none => s
      | some b =>
        let space := Config.payloadBytes - (s.buffer b).used
        if g.payloadSize ≤ space then s.appendFinal k b i g
        else
          let (front, back) := splitTokens (space - 20) g.tokens
          if front.isEmpty ∨ space < 20 then (s.closeBlock k).appendToNew k i g
          else
            let s := s.appendPiece k b i { g with tokens := front, last := false }
            let s := s.closeBlock k
            if g.index = 2 ^ 32 - 1 then s.dropLimited k i
            else
              let rest : Segment := { g with
                index := g.index + 1, rawOffset := g.rawOffset + rawLength front, first := false, tokens := back }
              (s.modAsm k (fun a => { a with remainder := some rest })).appendToNew k i rest

/-- A lane's block idle timer runs out and its open block closes (R77). -/
def Part.blockIdleTimer (s : Part) (k : LaneId) : Part :=
  if s.ranOut (s.asm k).timer then s.closeBlock k else s

/-! ## Release (R64, R67, R68) -/

/-- The lanes that wait get the free buffers, the longest waiting first, and work on their head entries at once (R64, R72). -/
def giveFrom : List LaneId → Part → Part
  | [], s => s
  | k :: ks, s => if s.pool.free.isEmpty then s else giveFrom ks (s.workHead k)

/-- Buffers become FREE and join the tail of the free list; waiting lanes are served and the pool section is rewritten
(R64, R67, R68). -/
def Part.release (s : Part) (bs : List Nat) : Part :=
  let s := bs.foldl (fun s b => s.setBuffer b Buffer.blank) s
  let s := { s with pool := { s.pool with free := s.pool.free ++ bs } }.touch .pool
  giveFrom s.pool.waiters s

/-- Lane `k`'s copy of buffer `b` is set (R66). -/
def Part.setCopy (s : Part) (k : LaneId) (b : Nat) (c : CopyState) : Part :=
  let x := s.buffer b
  s.setBuffer b { x with copies := x.copies.set k (some c) }

/-- No copy of a buffer is still owed: each is DONE or was discarded (R67, R68). -/
def Buffer.settled (x : Buffer) : Bool :=
  [x.copies.p0, x.copies.p1].all (fun c => c == none || c == some .done)

/-- Lane `k`'s copy of buffer `b` is DONE; the buffer is released when no copy is left owed (R67). -/
def Part.copyDone (s : Part) (k : LaneId) (b : Nat) : Part :=
  let s := s.setCopy k b .done
  if (s.buffer b).settled then s.release [b] else s

/-- Lane `k`'s claims on the pool are discarded (R68): offers, remainder, mark, timer, open block, copies. -/
def Part.cancelClaims (s : Part) (k : LaneId) : Part :=
  let opened := (s.asm k).openBlock
  let s := s.setAsm k Assembly.blank
  let drop := fun (x : Buffer) => { x with copies := x.copies.set k none }
  let freed := (List.range s.pool.buffers.length).filter (fun b =>
    let x := s.buffer b
    opened == some b || (x.state == .inFlight && (x.copies.get k).isSome && (drop x).settled))
  let s := { s with pool := { s.pool with
    buffers := s.pool.buffers.map (fun (x : Buffer) => if x.state = BufState.inFlight then drop x else x) } }
  (s.leaveWaiters k).release freed

end Sys2Proof.Machine
end

