-- ==== Sys2Proof/Machine/Library.lean ====
section
/-! DEFINITION. The Magazine Map: changes of location records, scans, labels, and lanes that follow their bays (R86, R130 to R132, R144). -/

namespace Sys2Proof.Machine

/-- An EMPTY record: no label, no state, VERIFIED clear, no home slot (R130). -/
def LocRecord.blank : LocRecord := { occ := .empty, label := none, state := none, verified := false, home := none }

/-- The record becomes EMPTY. -/
def Part.emptyAt (s : Part) (p : Loc) : Part := s.setLoc p LocRecord.blank
/-- The record becomes UNKNOWN and keeps what it had as remembered items (R130). -/
def Part.unknownAt (s : Part) (p : Loc) : Part := s.setLoc p { s.loc p with occ := .unknown }
/-- The record becomes UNKNOWN with no label, no state and VERIFIED clear; a bay keeps its home slot (R132, R144). -/
def Part.forgetAt (s : Part) (p : Loc) : Part :=
  s.setLoc p { LocRecord.unknown with home := (s.loc p).home }
/-- The record becomes OCCUPIED and UNLABELLED (R132). -/
def Part.unlabelledAt (s : Part) (p : Loc) : Part :=
  s.setLoc p { s.loc p with occ := .occupied, label := none, state := some .unlabelled, verified := false }

/-- The location whose OCCUPIED record holds a label. -/
def Part.findLabel (s : Part) (l : Label) : Option Loc :=
  locs.find? (fun p => (s.loc p).occ == .occupied && (s.loc p).label == some l)

/-- The cartridge of a label takes a state in the map: the record that holds the label, present or remembered (R131). -/
def Part.setCartridge (s : Part) (l : Label) (c : CartState) : Part :=
  match locs.find? (fun p => (s.loc p).label == some l) with
  | some p => s.setLoc p { s.loc p with state := some c }
  | none => s

/-- The VERIFIED flag of the record that holds a label is set or cleared. -/
def Part.setVerified (s : Part) (l : Label) (v : Bool) : Part :=
  match locs.find? (fun p => (s.loc p).label == some l) with
  | some p => s.setLoc p { s.loc p with verified := v }
  | none => s

/-- A cartridge OPEN in the map returns to SCRATCH, unless its record has become UNKNOWN (R122). The change marks the map
section, since the same event may choose the cartridge again (R131, R151, R185). -/
def Part.returnScratch (s : Part) (l : Label) : Part :=
  match s.findLabel l with
  | some p => (s.setLoc p { s.loc p with state := some .scratch }).touch .map
  | none => s

/-- The span entry of a label. -/
def Part.findSpan (s : Part) (l : Label) : Option SpanEntry := s.span.find? (fun e => e.label == l)

/-- `s` with the span entry of a label changed by `f`. -/
def Part.modSpan (s : Part) (l : Label) (f : SpanEntry → SpanEntry) : Part :=
  { s with span := s.span.map (fun e => if e.label = l then f e else e) }

/-- `s` without the span entry of a label; later entries keep their order (R112). -/
def Part.dropSpan (s : Part) (l : Label) : Part := { s with span := s.span.filter (fun e => e.label ≠ l) }

/-- Whether a lane holds a label as its chosen cartridge (R132). -/
def Part.isChosen (s : Part) (l : Label) : Bool :=
  [LaneId.l0, .l1].any (fun k => match (s.lane k).run.chosen with
    | some c => c.label == l
    | none => false)

/-- A scan that gives label `l` for location `p` (R132). -/
def Part.scanLabel (s : Part) (p : Loc) (l : Label) : Part :=
  let before := locs.find? (fun q => (s.loc q).label == some l)
  let s1 := (locs.filter (fun q => q ≠ p ∧ (s.loc q).label = some l)).foldl Part.forgetAt s
  let (state, verified) : CartState × Bool :=
    let known := before.bind (fun q => (s.loc q).state.map (fun c => (c, (s.loc q).verified)))
    match s.findSpan l with
    | some e => (e.mirror, false)
    | none => known.getD (.foreign, false)
  let reserved := s.isChosen l || (match s.findSpan l with | some e => e.mirror == .opened | none => false)
  let state := if state = .opened ∧ reserved = false then .scratch else state
  s1.setLoc p { s1.loc p with occ := .occupied, label := some l, state := some state, verified := verified }

/-- The resting state of a lane by its bay record: IDLE when OCCUPIED, EMPTY otherwise (R86). -/
def Part.restState (s : Part) (k : LaneId) : LaneState :=
  if (s.loc (bay k)).occ = .occupied then .idle else .empty

/-- A lane in EMPTY or IDLE follows its bay record; an absent lane stays EMPTY (R86, R85). -/
def Part.follow (s : Part) (k : LaneId) : Part :=
  let l := s.lane k
  if s.present k ∧ (l.state = .empty ∨ l.state = .idle) then s.setLane k { l with state := s.restState k } else s

/-- A lane leaves what it did for EMPTY or IDLE by its bay record (R86). The change marks the lane's section, since the same
event may take the lane back to the state it left (R110, R185). -/
def Part.rest (s : Part) (k : LaneId) : Part :=
  let t := s.modLane k (fun l => { l with state := s.restState k })
  if (s.lane k).state = s.restState k then t else t.touch (.lane k)

/-- Whether a change of a location record came about between two states: a change of occupancy or state (R131). -/
def recordsChanged (old s : Part) : Bool :=
  locs.any (fun p => (old.loc p).occ != (s.loc p).occ || (old.loc p).state != (s.loc p).state)

end Sys2Proof.Machine
end

