-- ==== Sys2Proof/Machine/Unpack.lean ====
section
/-! DEFINITION. The Unpacker: segment headers, tokens read back, what a slot does with a segment, and the acceptance rule's judgement of a block (R2, R3, R14 to R18, R159, R170). -/

namespace Sys2Proof.Machine

/-! ## Headers read back -/

/-- A segment header as read back (section 11.2). -/
structure SegHead where
  stream : Nat
  first : Bool
  last : Bool
  packed : Nat
  record : Nat
  index : Nat
  raw : Nat
  deriving DecidableEq, Repr

/-- The segment header at the start of `bs`. -/
def segHead (bs : List Byte) : SegHead :=
  { stream := field bs 0 1
    first := (byteAt bs 1).getLsbD 0
    last := (byteAt bs 1).getLsbD 1
    packed := field bs 2 2
    record := field bs 4 4
    index := field bs 8 4
    raw := field bs 12 8 }

/-- The bytes a segment takes in a payload (R76). -/
def SegHead.size (h : SegHead) : Nat := 20 + h.packed + (if h.last then 4 else 0)

/-- Whether a segment header is consistent (R15). -/
def SegHead.consistent (h : SegHead) : Bool :=
  h.packed ≤ 4096 && (h.first == (h.index == 0)) && (!h.first || h.raw == 0)

/-- Whether a segment matches a slot that is decoding (R15). -/
def SegHead.isNext (h : SegHead) (d : Decoding) : Bool :=
  h.record == d.record && h.index == d.nextIndex && h.raw == d.produced

/-! ## Tokens read back (R2, R3, R16) -/

/-- What the packed bytes hold next: nothing, a token cut short, or a token and the bytes behind it. -/
inductive Parsed where
  | ended
  | cut
  | token (t : Token) (rest : List Byte)
  deriving DecidableEq, Repr

/-- Reads one token by R2. -/
def parseToken : List Byte → Parsed
  | [] => .ended
  | c :: rest =>
    let n := c.toNat
    if n < 0x40 then
      if rest.length < n + 1 then .cut else .token (.lit (rest.take (n + 1))) (rest.drop (n + 1))
    else
      match rest with
      | [] => .cut
      | b :: rest =>
        if n < 0x80 then .token (.rep (n - 0x40 + 3) b) rest
        else .token (.copy ((n - 0x80) / 16 + 3) ((n % 16) * 256 + b.toNat + 1)) rest

/-- The next byte of a token being produced, and what is left of it; a copy looks back in the history (R3). -/
def Token.next (hist : List Byte) : Token → Option (Byte × Token)
  | .lit [] => none
  | .lit (b :: bs) => some (b, .lit bs)
  | .rep 0 _ => none
  | .rep (n + 1) v => some (v, .rep n v)
  | .copy 0 _ => none
  | .copy (n + 1) d => some (byteAt hist (d - 1), .copy n d)

/-- A record that enters decoding (R15). -/
def Decoding.begin (record : Nat) : Decoding :=
  { record := record, nextIndex := 1, produced := 0, hist := [], fold := Fold.start }

/-- One byte produced (R16). -/
def Decoding.push (d : Decoding) (b : Byte) : Decoding :=
  { d with produced := d.produced + 1, hist := (b :: d.hist).take 4096, fold := d.fold.add b }

/-- Up to `n` bytes of a token produced: the record, what is left of the token and the bytes. -/
def produce : Nat → Token → Decoding → Decoding × Token × List Byte
  | 0, t, d => (d, t, [])
  | n + 1, t, d =>
    match t.next d.hist with
    | none => (d, t, [])
    | some (b, t') =>
      let (d', t'', out) := produce n t' (d.push b)
      (d', t'', b :: out)

/-- How a run of the decoder ends: at the packed length, at a failing token, or held for want of room. -/
inductive Ending where
  | complete
  | failed
  | held (p : Place)
  deriving DecidableEq, Repr

/-- What a run of the decoder leaves: the record, the bytes produced, and how it ended. -/
structure Decoded where
  record : Decoding
  out : List Byte
  ending : Ending
  deriving DecidableEq, Repr

/-- Whether a token read whole may be produced (R16). -/
def Token.passes (t : Token) (d : Decoding) : Bool :=
  (match t with
    | .copy _ dist => dist ≤ d.produced
    | _ => true) && d.produced + t.raw ≤ Config.maxRaw

/-- The decoder runs from a place with `room` bytes of output left (R16). `fuel` bounds the tokens. -/
def decodeFrom : Nat → Nat → Decoding → Place → Decoded
  | 0, _, d, p => ⟨d, [], .held p⟩
  | fuel + 1, room, d, p =>
    match p.current with
    | some t =>
      let (d', t', out) := produce (min room t.raw) t d
      if t'.raw = 0 then
        let r := decodeFrom fuel (room - out.length) d' { p with current := none }
        { r with out := out ++ r.out }
      else ⟨d', out, .held { p with current := some t' }⟩
    | none =>
      match parseToken p.rest with
      | .ended => ⟨d, [], .complete⟩
      | .cut => ⟨d, [], .failed⟩
      | .token t rest =>
        if t.passes d then decodeFrom fuel room d { p with rest := rest, current := some t }
        else ⟨d, [], .failed⟩

/-- The decoder runs from a place until it ends (R16). -/
def decodeRun (room : Nat) (d : Decoding) (p : Place) : Decoded := decodeFrom (2 * p.rest.length + 2) room d p

/-- The decoder's place at the start of the segment at the head of `bs`. -/
def placeOf (h : SegHead) (bs : List Byte) : Place :=
  { rest := slice bs 20 h.packed, current := none, last := h.last, check := field bs (20 + h.packed) 4 }

/-! ## Slots (R15) -/

/-- A report of the Unpacker: the record, its result and the bytes produced. -/
structure Report where
  record : Nat
  result : RecResult
  produced : Nat
  deriving DecidableEq, Repr

/-- What a slot does with a segment: the report it makes, the slot after it, and whether the segment is decoded. -/
structure Handling where
  report : Option Report
  slot : Slot
  decode : Bool
  deriving DecidableEq, Repr

/-- A segment handled as by an EMPTY slot (R15). -/
def SegHead.asEmpty (h : SegHead) : Handling :=
  if h.consistent then
    if h.first then ⟨none, .decoding (Decoding.begin h.record), true⟩
    else ⟨some ⟨h.record, .unstarted, 0⟩, .discarding h.record, false⟩
  else ⟨some ⟨h.record, .format, 0⟩, .discarding h.record, false⟩

/-- A segment handled by a slot that does not decode another record (R15). -/
def SegHead.handle (h : SegHead) : Slot → Handling
  | .empty => h.asEmpty
  | .discarding r => if r = h.record then ⟨none, .discarding r, false⟩ else h.asEmpty
  | .decoding d =>
    if h.consistent then
      if h.isNext d then ⟨none, .decoding { d with nextIndex := d.nextIndex + 1 }, true⟩
      else ⟨some ⟨d.record, .incomplete, d.produced⟩, .discarding d.record, false⟩
    else ⟨some ⟨d.record, .format, d.produced⟩, .discarding d.record, false⟩

/-- The result at the end of a LAST segment (R17). -/
def checkResult (d : Decoding) (check : Nat) : RecResult := if d.fold.value = check then .done else .recordCheck

/-! ## The acceptance rule (R159, R170) -/

/-- A READ as it is handed over (R96): header fields and what its checks gave. -/
structure ReadBlock where
  marker : Bool
  kind : Nat
  label : Label
  seq : Nat
  rewrites : Nat
  used : Nat
  folds : Bool
  tail : Bool
  deriving DecidableEq, Repr

/-- The judgement of a READ: skipped, damaged, or accepted, the last two at its sequence. -/
inductive Judgement where
  | skipped
  | damaged (seq : Nat)
  | accepted (seq : Nat)
  deriving DecidableEq, Repr

/-- The rewrite runs that contain a sequence (R159). -/
def runsWith (runs : List (Nat × Nat)) (s : Nat) : Nat := (runs.filter (fun r => r.1 ≤ s ∧ s ≤ r.2)).length

/-- The acceptance rule: `last` is the chunk's last sequence, `kind` the kind that a sequence calls for. Sequences from
`expected` to the judged one are LOST. -/
def ReadBlock.judge (b : ReadBlock) (runs : List (Nat × Nat)) (expected last kind : Nat) : Judgement :=
  if !b.marker || last < b.seq then .skipped
  else if b.rewrites < runsWith runs b.seq then .skipped
  else if b.seq < expected then .skipped
  else if runsWith runs b.seq < b.rewrites || b.kind != kind || !b.folds || !b.tail then .damaged b.seq
  else .accepted b.seq

/-- The block in a return as the lane hands it over: its header, its trailer and the folds taken as it came (R96). -/
def readBlock (bytes : List Byte) (headerFold payloadFold : Fold) : ReadBlock :=
  { marker := bytes.take 4 == markerBlock
    kind := field bytes 4 1
    label := labelAt bytes 8
    seq := field bytes 16 4
    rewrites := field bytes 6 1
    used := field bytes 24 2
    folds := field bytes 32752 4 == payloadFold.value && field bytes 32756 4 == headerFold.value
    tail := slice bytes 32760 4 == markerEnd }

end Sys2Proof.Machine
end

