-- ==== Sys2Proof/Machine/Output.lean ====
section
/-! DEFINITION. What the read jobs make of the Unpacker's reports: restore output with its record prefixes, verify counts, the walk through an accepted block (R160, R161, R163, R164, R170, R171). -/

namespace Sys2Proof.Machine

/-! ## Access to jobs, slots and the walk -/

/-- `s` with the restore job of lane `k`, if any, changed by `f`. -/
def Part.modRestore (s : Part) (k : LaneId) (f : RestoreJob → RestoreJob) : Part :=
  s.modLane k (fun l => { l with restore := l.restore.map f })
/-- `s` with the verify job of lane `k`, if any, changed by `f`. -/
def Part.modVerify (s : Part) (k : LaneId) (f : VerifyJob → VerifyJob) : Part :=
  s.modLane k (fun l => { l with verify := l.verify.map f })
/-- `s` with lane `k`'s access of its read job changed by `f`. -/
def Part.modAccess (s : Part) (k : LaneId) (f : Access → Access) : Part :=
  s.modLane k (fun l => { l with access := f l.access })
/-- The restore job that has lane `k`: one that does not wait for a verify job (R153). -/
def Part.restoring (s : Part) (k : LaneId) : Option RestoreJob :=
  match (s.lane k).restore with
  | some j => if j.phase = .waitingVerify then none else some j
  | none => none
/-- The verify job that has lane `k`: one that is not suspended (R174). -/
def Part.verifying (s : Part) (k : LaneId) : Option VerifyJob :=
  match (s.lane k).verify with
  | some j => if j.phase = .suspended then none else some j
  | none => none
/-- The slot of stream `t` in lane `k`'s unpack context (R14). -/
def Part.slot (s : Part) (k : LaneId) (t : Fin 8) : Slot := (s.lane k).unpack.slots[t]
/-- `s` with that slot replaced. -/
def Part.setSlot (s : Part) (k : LaneId) (t : Fin 8) (x : Slot) : Part :=
  s.modLane k (fun l => { l with unpack := { l.unpack with slots := l.unpack.slots.set t x } })
/-- Every slot of lane `k`'s context becomes EMPTY (R14); without a job the context is in check-only mode (DESIGN CHOICE,
log entry 6). -/
def Part.clearUnpack (s : Part) (k : LaneId) : Part := s.modLane k (fun l => { l with unpack := Unpack.empty false })
/-- The records in DECODING on lane `k`, in rising stream number, in which a verify job names their results; where several fail at
one event, the first of them sets the first failure (R171; DESIGN CHOICE, log entry 50). -/
def Part.decodings (s : Part) (k : LaneId) : List (Fin 8 × Decoding) :=
  streamIds.filterMap (fun t => match s.slot k t with
    | .decoding d => some (t, d)
    | _ => none)
/-- The return buffer becomes free and the walk ends. -/
def Part.freeBuffer (s : Part) (k : LaneId) : Part :=
  s.modLane k (fun l => { l with buffer := none, access := { l.access with walk := none } })

/-! ## Restore output (R163, R164) -/

/-- A record prefix (section 11.7). -/
def prefixBytes (record raw : Nat) (r : RecResult) : List Byte :=
  leBytes 4 record ++ leBytes 8 raw ++ leBytes 2 r.num ++ zeros 2

/-- The bytes left in the present region (R164). -/
def RestoreJob.room (j : RestoreJob) : Nat := j.destBase + j.destSize - j.pointer

/-- Output at the write pointer: own writes, the pointer and bytes written move on (R163). -/
def Part.output (s : Part) (k : LaneId) (bytes : List Byte) : Part :=
  match (s.lane k).restore with
  | some j =>
    (s.pushWrites (fun _ => .restoreOut k j.id) j.pointer bytes).modRestore k
      (fun j => { j with pointer := j.pointer + bytes.length, written := j.written + bytes.length })
  | none => s

/-- A record's report is counted and the cursor moves past it (R161, R163). -/
def RestoreJob.count (j : RestoreJob) (record : Nat) (r : RecResult) : RestoreJob :=
  { j with
    cursor := max j.cursor (record + 1)
    done := if r = .done then j.done + 1 else j.done
    failed := if r = .done then j.failed else j.failed + 1
    firstFailed := if r = .done then j.firstFailed else j.firstFailed <|> some record }

/-- The report of a record in DECODING: its prefix is written again at the open prefix, unless no more output is to be
written (R163, R165). -/
def Part.reportOpen (s : Part) (k : LaneId) (record produced : Nat) (r : RecResult) (rewrite : Bool) : Part :=
  match (s.lane k).restore with
  | some j =>
    let s := match j.openPrefix with
      | some a => if rewrite then s.pushWrites (fun _ => .restoreOut k j.id) a (prefixBytes record produced r) else s
      | none => s
    s.modRestore k (fun j => { j.count record r with openPrefix := none })
  | none => s

/-- The report of a record that did not enter DECODING: one prefix of raw length 0 at the write pointer (R163). -/
def Part.reportShort (s : Part) (k : LaneId) (record : Nat) (r : RecResult) : Part :=
  (s.output k (prefixBytes record 0 r)).modRestore k (fun j => j.count record r)

/-- The restore runs out of room (R164): WAITING DEST, RESTORE WAIT, the return timer stopped. The change of phase marks the
restore section, since the same event may have ended an earlier WAITING DEST (R166, R185). -/
def Part.waitDest (s : Part) (k : LaneId) : Part :=
  (((s.modRestore k (fun j => { j with phase := .waitingDest })).modLane k
    (fun l => { l with outstanding := l.outstanding.map (fun o => { o with timer := none }) })).latch .restoreWait).touch
    (.restore k)

/-- The result that a gap gives a record not seen (R160). -/
def gapResult (gap : Bool) : RecResult := if gap then .damaged else .incomplete

/-- Reports the next `n` records from the cursor as not seen, but for `skip`, which its own report covers; false when
the destination ran out of room (R161, R164, R165). -/
def reportUnseen (k : LaneId) (r : RecResult) (skip : Option Nat) : Nat → Part → Part × Bool
  | 0, s => (s, true)
  | n + 1, s =>
    match (s.lane k).restore with
    | none => (s, true)
    | some j =>
      if skip = some j.cursor then
        reportUnseen k r skip n (s.modRestore k (fun j => { j with cursor := j.cursor + 1 }))
      else if j.room < 16 then (s.waitDest k, false)
      else reportUnseen k r skip n (s.reportShort k j.cursor r)

/-- The job names a result for the record in DECODING of its stream (R18, R160, R162, R165). A record that still waits for room
for its first prefix is counted, and nothing of it is written (R164; DESIGN CHOICE, log entry 47). -/
def Part.nameRestore (s : Part) (k : LaneId) (r : RecResult) (rewrite : Bool) : Part :=
  match (s.lane k).restore with
  | some j =>
    match s.slot k j.stream with
    | .decoding d => (s.reportOpen k d.record d.produced r rewrite).setSlot k j.stream (.discarding d.record)
    | _ => s
  | none => s

/-! ## The walk (R161) -/

/-- The payload of a block. -/
def payloadOf (block : List Byte) : List Byte := slice block 32 Config.payloadBytes

/-- The walk begins on an accepted block; an empty one frees the buffer at once (R161). -/
def Part.beginWalk (s : Part) (k : LaneId) (used : Nat) : Part :=
  if used = 0 then s.freeBuffer k
  else s.modAccess k (fun a => { a with walk := some { off := 0, used := used, place := none, passed := none } })

/-- The walk moves past a segment; past the last one the buffer is freed (R161). -/
def Part.walkPast (s : Part) (k : LaneId) (w : Walk) (h : SegHead) : Part :=
  if w.off + h.size < w.used then
    s.modAccess k (fun a => { a with walk := some { w with off := w.off + h.size, place := none, passed := none } })
  else s.freeBuffer k

/-- Whether the segment at the walk's place makes the rest of the block damaged (R161). -/
def Walk.bad (w : Walk) (h : SegHead) : Bool :=
  Config.payloadBytes < w.used || h.packed > 4096 || w.used < w.off + h.size

/-! ## A restore's segment (R160, R161, R15 to R17) -/

/-- The decoder of lane `k` runs on from place `p` (R16, R17). -/
def Part.decodeRestore (s : Part) (k : LaneId) (t : Fin 8) (w : Walk) (h : SegHead) (d : Decoding) (p : Place) : Part :=
  let room := match (s.lane k).restore with
    | some j => j.room
    | none => 0
  let r := decodeRun room d p
  let s := s.output k r.out
  match r.ending with
  | .held p' =>
    ((s.setSlot k t (.decoding r.record)).modAccess k (fun a => { a with walk := some { w with place := some p' } })).waitDest k
  | .failed =>
    ((s.reportOpen k r.record.record r.record.produced .format true).setSlot k t (.discarding r.record.record)).walkPast k w h
  | .complete =>
    let s := if p.last then
        (s.reportOpen k r.record.record r.record.produced (checkResult r.record p.check) true).setSlot k t .empty
      else s.setSlot k t (.decoding r.record)
    s.walkPast k w h

/-- The decoder of lane `k` begins a record or resumes at its place. A record that has no prefix yet gets it first; without room
for it the decoder is held there and the job waits for a destination (R16, R163, R164). -/
def Part.decodeOn (s : Part) (k : LaneId) (t : Fin 8) (w : Walk) (h : SegHead) (d : Decoding) (p : Place) : Part :=
  match (s.lane k).restore with
  | none => s
  | some j =>
    if j.openPrefix.isSome then s.decodeRestore k t w h d p
    else if j.room < 16 then (s.modAccess k (fun a => { a with walk := some { w with place := some p } })).waitDest k
    else
      ((s.modRestore k (fun j => { j with openPrefix := some j.pointer })).output k
        (prefixBytes d.record 0 .incomplete)).decodeRestore k t w h d p

/-- Gap settlement at a segment passed on, against a slot that decodes: a record that the segment does not match is DAMAGED
(R160). -/
def Part.settleGap (s : Part) (k : LaneId) (t : Fin 8) (h : SegHead) (gap : Bool) : Part :=
  match s.slot k t with
  | .decoding d => if gap && !h.isNext d then s.nameRestore k .damaged true else s
  | _ => s

/-- The segment reaches the slot: the report that needs no decoding, the first prefix of a record, the decoder (R15,
R163). A report whose prefix has no room waits with its prefix, and the segment is handed over again when the job resumes
(R164; DESIGN CHOICE, log entry 47). -/
def Part.handRestore (s : Part) (k : LaneId) (t : Fin 8) (w : Walk) (h : SegHead) (bs : List Byte) (gap : Bool) : Part :=
  match (s.lane k).restore with
  | none => s
  | some j =>
    let s := match s.slot k t with
      | .decoding d => if d.record = h.record then s else s.nameRestore k .incomplete true
      | _ => s
    let was := s.slot k t
    let a := h.handle was
    match was, a.report with
    | .decoding _, some r => ((s.reportOpen k r.record r.produced r.result true).setSlot k t a.slot).walkPast k w h
    | _, some r =>
      if j.room < 16 then s.waitDest k
      else
        let res := if r.result = .unstarted then gapResult gap else r.result
        ((s.reportShort k r.record res).setSlot k t a.slot).walkPast k w h
    | .decoding _, none =>
      match a.slot with
      | .decoding d => s.decodeOn k t w h d (placeOf h bs)
      | _ => s
    | _, none =>
      match a.slot with
      | .decoding d =>
        ((s.modRestore k (fun j => { j with openPrefix := none })).setSlot k t a.slot).decodeOn k t w h d (placeOf h bs)
      | _ => (s.setSlot k t a.slot).walkPast k w h

/-- A segment passed on, its gap settled: the records from the cursor up to it that were not seen are reported, and it is
handed over. Without room for a prefix the job waits and comes back here (R161, R164). -/
def Part.passOn (s : Part) (k : LaneId) (t : Fin 8) (w : Walk) (h : SegHead) (bs : List Byte) (gap : Bool) : Part :=
  let skip := match s.slot k t with
    | .decoding d => some d.record
    | _ => none
  let cursor := match (s.lane k).restore with
    | some j => j.cursor
    | none => h.record
  match reportUnseen k (gapResult gap) skip (h.record - cursor) s with
  | (s, false) => s
  | (s, true) => s.handRestore k t w h bs gap

/-- The restore of lane `k` takes the next segment of its block, or goes on with the one it is held in (R161, R164). A gap is
settled at the segment's first passing, and one that arises while the job waits there is left for the next segment (R160). -/
def Part.unpackRestore (s : Part) (k : LaneId) (j : RestoreJob) (w : Walk) (block : List Byte) : Part :=
  let bs := (payloadOf block).drop w.off
  let h := segHead bs
  match w.place, w.passed with
  | some p, _ =>
    match s.slot k j.stream with
    | .decoding d => s.decodeOn k j.stream w h d p
    | _ => s.walkPast k w h
  | none, some gap => s.passOn k j.stream w h bs gap
  | none, none =>
    if w.bad h then
      (s.modRestore k (fun j => { j with damaged := j.damaged + 1, gap := true })).freeBuffer k
    else if h.stream ≠ j.stream.val ∨ h.record < j.cursor ∨ j.effLast < h.record then s.walkPast k w h
    else
      let s := ((s.settleGap k j.stream h j.gap).modRestore k (fun j => { j with gap := false })).modAccess k
        (fun a => { a with walk := some { w with passed := some j.gap } })
      s.passOn k j.stream w h bs j.gap

/-- Whether the cursor has passed the effective last record (R161). -/
def RestoreJob.satisfied (j : RestoreJob) : Bool := j.effLast < j.cursor

/-! ## A verify's segment (R170, R171) -/

/-- A verify job counts a record's report (R171). -/
def VerifyJob.count (j : VerifyJob) (t : Fin 8) (record : Nat) (r : RecResult) : VerifyJob :=
  match r with
  | .done => { j with done := j.done + 1 }
  | .isPartial | .unstarted => { j with partials := j.partials + 1 }
  | r => { j with failed := j.failed + 1, firstFailure := j.firstFailure <|> some (t, record, r) }

/-- All eight gap flags are set (R170). -/
def VerifyJob.allGaps (j : VerifyJob) : VerifyJob := { j with gaps := Vector.replicate 8 true }

/-- The verify job names a result for the record in DECODING of stream `t` (R18). -/
def Part.nameVerify (s : Part) (k : LaneId) (t : Fin 8) (r : RecResult) : Part :=
  match s.slot k t with
  | .decoding d => (s.modVerify k (fun j => j.count t d.record r)).setSlot k t (.discarding d.record)
  | _ => s

/-- A segment of stream `t` reaches its slot in a verify pass, its gap flag settled first (R171, R15 to R17). -/
def Part.handVerify (s : Part) (k : LaneId) (t : Fin 8) (h : SegHead) (bs : List Byte) : Part :=
  match (s.lane k).verify with
  | none => s
  | some j =>
    let gap := j.gaps[t]
    let s := match s.slot k t with
      | .decoding d =>
        if gap && !h.isNext d then s.nameVerify k t .damaged
        else if d.record = h.record then s
        else s.nameVerify k t .incomplete
      | _ => s
    let a := h.handle (s.slot k t)
    let s := s.modVerify k (fun j => { j with gaps := j.gaps.set t false })
    let s := match a.report with
      | some r => s.modVerify k (fun j => j.count t r.record
          (if gap && r.result == RecResult.unstarted then RecResult.damaged else r.result))
      | none => s
    match a.decode, a.slot with
    | true, .decoding d =>
      let r := decodeRun (Config.maxRaw + 1) d (placeOf h bs)
      match r.ending with
      | .complete =>
        if h.last then
          (s.modVerify k (fun j => j.count t r.record.record (checkResult r.record (placeOf h bs).check))).setSlot k t .empty
        else s.setSlot k t (.decoding r.record)
      | _ => (s.modVerify k (fun j => j.count t r.record.record .format)).setSlot k t (.discarding r.record.record)
    | _, x => s.setSlot k t x

/-- The verify job of lane `k` takes the next segment of its block (R170, R171). -/
def Part.unpackVerify (s : Part) (k : LaneId) (w : Walk) (block : List Byte) : Part :=
  let bs := (payloadOf block).drop w.off
  let h := segHead bs
  match streamArg (byteAt bs 0), w.bad h with
  | some t, false => (s.handVerify k t h bs).walkPast k w h
  | _, _ => (s.modVerify k (fun j => { j.allGaps with damaged := j.damaged + 1 })).freeBuffer k

end Sys2Proof.Machine
end

