-- ==== Sys2Proof/Machine/Faults.lean ====
section
/-! DEFINITION. What a lane gives up: served items, volumes, queues, changer requests, read jobs; its entry into FAULT; its requests to the changer (R93, R101, R107, R111, R119, R122, R146, R165, R173). -/

namespace Sys2Proof.Machine

/-! ## Served items and orders -/

/-- Whether the lane serves a committed item. -/
def Lane.committed (l : Lane) : Bool :=
  match l.serving with
  | some v => v.committed
  | none => false

/-- A committed item in service is released (R93); an uncommitted one stays. -/
def Part.releaseServed (s : Part) (k : LaneId) : Part :=
  s.modLane k (fun l => if l.committed then { l with serving := none } else l)

/-- The pending order is dropped; if it is being served, it is released. -/
def Part.dropPending (s : Part) (k : LaneId) : Part :=
  let served := match (s.lane k).serving with
    | some v => v.committed && (match v.item with | .data .. => false | _ => true)
    | none => false
  s.modLane k (fun l => { l with pending := none, serving := if served then none else l.serving })

/-- The outstanding order becomes none and its return timer stops. -/
def Part.endOrder (s : Part) (k : LaneId) : Part := s.modLane k (fun l => { l with outstanding := none })

/-- A send queue entry made from a Sent List DATA entry, with a rewrite count (R101, R107). -/
def SentEntry.back (e : SentEntry) (rewrites : Nat) : Option QueueEntry :=
  match e.kind with
  | .data b => some ⟨b, some e.seq, rewrites, e.carried⟩
  | _ => none

/-- The Sent List's DATA entries go back to the front of the send queue, their rewrite counts raised by `raise` and
their copies QUEUED; LABEL and EOV entries are dropped; the Sent List empties (R101, R107, R121). -/
def Part.putBack (s : Part) (k : LaneId) (raise : Nat) : Part :=
  let back := (s.lane k).sent.filterMap (fun e => e.back (e.rewrites + raise))
  let s := back.foldl (fun s e => s.setCopy k e.buf .queued) s
  s.modLane k (fun l => { l with queue := back ++ l.queue, sent := [] })

/-- The entries of the send queue are carried to the next volume (R119, step 4). -/
def Part.carry (s : Part) (k : LaneId) : Part :=
  s.modLane k (fun l => { l with queue := l.queue.map (fun e => { e with seq := none, rewrites := 0, carried := true }) })

/-! ## Volumes -/

/-- Whether the lane's volume is open: its LABEL has verified and the lane has not left it (R111). -/
def Lane.volumeOpen (l : Lane) : Bool := l.state == .append || l.state == .closing

/-- Whether both lanes' runs belong to one twin run. -/
def Part.twinRun (s : Part) : Bool :=
  let a := (s.lane .l0).run
  let b := (s.lane .l1).run
  a.isOpen && b.isOpen && a.role != .single && b.role != .single

/-- The volume number that the lane's chosen cartridge has or will have. -/
def Lane.volumeNumber (l : Lane) : Nat :=
  match l.volume with
  | some v => v.number
  | none => l.run.nextVolume

/-- The limit of lane `k`: its own capacity, in a twin run at most that of the other lane's volume of the same number
(R117, R124). Once the other lane's run has ended, by END RUN too, it is the own capacity (DEDUCED, log entry 35). -/
def Part.limitOf (s : Part) (k : LaneId) : Nat :=
  let l := s.lane k
  if s.twinRun then
    match (s.lane k.other).run.capacities.lookup l.volumeNumber with
    | some c => min l.run.ownCapacity c
    | none => l.run.ownCapacity
  else l.run.ownCapacity

/-- Each lane that has a chosen cartridge takes `g` of the limit it has and the one its capacities now give (R124). -/
def Part.setLimits (s : Part) (g : Nat → Nat → Nat) : Part :=
  let f := fun (s : Part) (k : LaneId) =>
    if (s.lane k).run.chosen.isSome then
      let n := s.limitOf k
      s.modLane k (fun l => { l with run := { l.run with limit := g l.run.limit n } })
    else s
  f (f s .l0) .l1

/-- Both limits are judged again (R124). -/
def Part.relimit (s : Part) : Part := s.setLimits (fun _ n => n)

/-- The lane leaves its volume (R111). A cartridge given up before its LABEL verified leaves no capacity behind, and both
limits are judged again: a limit falls only by the other lane's choice, so that none falls here (R124). -/
def Part.leaveVolume (s : Part) (k : LaneId) : Part :=
  (s.modLane k (fun l => { l with
    volume := none
    stale := []
    run := { l.run with
      chosen := none, warned := false, due := 0, eovList := [], absentFrom := 0
      capacities := l.run.capacities.filter (fun c => c.1 ≠ l.run.nextVolume) } })).setLimits max

/-- The span entry of the lane's volume takes the lane's figures (R112, Volume left). -/
def Part.mirror (s : Part) (k : LaneId) (f : SpanEntry → SpanEntry) : Part :=
  match (s.lane k).volume with
  | some v => s.modSpan v.label (fun e => f { e with positions := v.positions, verified := v.verified })
  | none => s

/-- The cartridge that the lane has chosen takes a state in the map. -/
def Part.markChosen (s : Part) (k : LaneId) (c : CartState) : Part :=
  match (s.lane k).run.chosen with
  | some x => s.setCartridge x.label c
  | none => s

/-- The open volume becomes INTERRUPTED and is left; a cartridge in LABELLING becomes INTERRUPTED (R122). -/
def Part.interruptVolume (s : Part) (k : LaneId) : Part :=
  let l := s.lane k
  if l.volumeOpen then
    ((s.markChosen k .interrupted).mirror k (fun e => { e with mirror := .interrupted })).leaveVolume k
  else if l.state = .labelling then s.markChosen k .interrupted
  else s

/-! ## Changer requests (R146, R156) -/

/-- Whether a changer entry is a lane request of lane `k`, and not cut off from it. -/
def Entry.ofLane (k : LaneId) (e : Entry) : Bool :=
  !e.cut && (match e.job with
    | .load k' _ _ => k' == k
    | .home k' => k' == k
    | _ => false)

/-- A lending lane whose cartridge is not to be fetched any more, or has been, leaves UNLOADING by its bay record
(R156). -/
def Part.endLending (s : Part) (k : LaneId) : Part :=
  match (s.lane k).lending with
  | some _ => (s.modLane k (fun l => { l with lending := none })).rest k
  | none => s

/-- The borrower is gone: a lending lane that has given its UNLOADED return leaves UNLOADING, any other does so at that
return (R156). -/
def Part.orphan (s : Part) (k : LaneId) : Part :=
  match (s.lane k).lending with
  | some d => if d.unloaded then s.endLending k else s.modLane k (fun l => { l with lending := some { d with orphan := true } })
  | none => s

/-- Whether entry `id` is the load of lane `k` that the other lane lends its cartridge for (R156). -/
def Part.isLoan (s : Part) (k : LaneId) (id : Nat) : Bool :=
  match (s.lane k.other).lending with
  | some d => d.load == some id
  | none => false

/-- The load that the other lane lends for has ended, well or not, or is withdrawn: the lender leaves UNLOADING (R156). The end
of any other entry of lane `k` leaves it lending (R146). -/
def Part.loanDone (s : Part) (k : LaneId) (id : Nat) : Part := if s.isLoan k id then s.endLending k.other else s

/-- Lane `k`'s requests that have not started are withdrawn, a started one is cut off from it (R106, R107, R146). A load
from the other bay so withdrawn ends the loan (R156). -/
def Part.withdraw (s : Part) (k : LaneId) : Part :=
  let gone := s.changer.queue.filter (fun e => e.ofLane k && !e.started)
  let s := { s with changer := { s.changer with
    queue := (s.changer.queue.filter (fun e => !(e.ofLane k && !e.started))).map
      (fun e => if e.ofLane k then { e with cut := true } else e) } }
  gone.foldl (fun s e => s.loanDone k e.id) s

/-- The last failure is recorded (R151). A change of it marks the changer section, since a later failure of the same event may
bring back the one that stood (R185). -/
def Part.fail (s : Part) (entry : FailEntry) (source target : Option Loc) (cause : FailCause) : Part :=
  let t := { s with changer := { s.changer with lastFailure := some ⟨entry, source, target, cause⟩ } }
  if s.changer.lastFailure = t.changer.lastFailure then t else t.touch .changer

/-! ## Read jobs that end (R165, R173) -/

/-- What every end of a read job leaves of the lane's access: the context EMPTY, the buffer free, no walk, no loan; a
lender no longer asked for its cartridge goes its way (R14, R156, R165, R173). -/
def Part.dropAccess (s : Part) (k : LaneId) : Part :=
  let loan := (s.lane k).access.loan
  let s := (s.clearUnpack k).modLane k (fun l => { l with buffer := none, access := Access.none })
  if loan = .unloading then s.orphan k.other else s

/-- The restore job of lane `k` has ended with `r` (R165): its figures are kept, RESTORE DONE is latched. -/
def Part.restoreOver (s : Part) (k : LaneId) (r : JobResult) : Part :=
  match (s.lane k).restore with
  | none => s
  | some j =>
    let s := s.modLane k (fun l => { l with restore := none, lastRestore := some { j with result := r } })
    let s := if j.phase = RestorePhase.waitingVerify then s else s.dropAccess k
    (s.latch .restoreDone).touch (.restore k)

/-- The verify job of lane `k` has ended with `r` (R173): its figures are kept, VERIFY DONE is latched. -/
def Part.verifyOver (s : Part) (k : LaneId) (r : JobResult) : Part :=
  match (s.lane k).verify with
  | none => s
  | some j =>
    let s := s.modLane k (fun l => { l with verify := none, lastVerify := some { j with result := r } })
    let s := if j.phase = VerifyPhase.suspended then s else s.dropAccess k
    (s.latch .verifyDone).touch (.verify k)

/-- Both jobs of lane `k` end together with `r`, LANE FAULT or CANCELLED; a restore that had already ended early keeps
its result (R165, R166, R175, R176). A verify job that runs names INCOMPLETE for the records in DECODING: counted at a
LANE FAULT (R18, R171; DEDUCED, log entry 20), not counted at CANCEL LANE (R176). -/
def Part.endJobs (s : Part) (k : LaneId) (r : JobResult) : Part :=
  let s := match (s.lane k).restore with
    | some j =>
      if j.early && r == JobResult.laneFault then s.restoreOver k j.result
      else
        let s := if j.phase = RestorePhase.waitingVerify then s else s.nameRestore k .incomplete true
        s.restoreOver k r
    | none => s
  let s := if r = .laneFault ∧ (s.verifying k).isSome = true then
      (s.decodings k).foldl (fun s (x : Fin 8 × Decoding) => s.nameVerify k x.1 .incomplete) s
    else s
  s.verifyOver k r

/-! ## Lane FAULT (R107) -/

/-- Lane `k` enters FAULT with a code; a lane already there keeps its code (R107, R108). -/
def Part.laneFault (s : Part) (k : LaneId) (code : LaneCode) : Part :=
  let l := s.lane k
  if l.state = .fault then s
  else
    let s := (s.releaseServed k).modLane k (fun l => { l with
      code := code, pending := none, owedEov := none, outstanding := none, ret := none, lending := none
      cut := l.ret.map (·.bytes.length) })
    let s := (s.putBack k 0).modLane k (fun l => { l with stale := [] })
    let s := if code = .tableFull then s.markChosen k .suspect else s.interruptVolume k
    let s := (s.endJobs k .laneFault).modLane k (fun l => { l with buffer := none, access := Access.none })
    let s := ((s.withdraw k).leaveWaiters k).modLane k (fun l => { l with state := .fault })
    (s.touch (.lane k)).rise (35 + k.num)

/-! ## Asking the changer (R146, R147) -/

/-- What a failed changer entry leaves as last failure: a dropped inventory the first location left to scan (R151;
DESIGN CHOICE, log entry 29). -/
def Job.failure : Job → FailEntry × Option Loc × Option Loc
  | .load k p _ => (.load k, some p, some (bay k))
  | .home k => (.home k, some (bay k), none)
  | .move a b => (.move, some a, some b)
  | .inventory ps => (.inventory, ps.head?, none)
  | .scanM => (.scanM, some mailSlot, none)

/-- The last failure is recorded of an entry (R151). -/
def Part.failJob (s : Part) (j : Job) (c : FailCause) : Part :=
  let (e, a, b) := j.failure
  s.fail e a b c

/-- An entry joins the changer queue (R146). The change marks the changer section, since another entry may leave the queue at
the same event (R151, R185). -/
def Part.enqueue (s : Part) (j : Job) : Part :=
  Part.touch { s with changer := { s.changer with
      queue := s.changer.queue ++ [⟨s.changer.nextEntry, j, false, false⟩]
      nextEntry := s.changer.nextEntry + 1 } } .changer

/-- A lane asks for a move: it joins the queue, or fails at once with the changer FAULTED (R145, R147). -/
def Part.request (s : Part) (k : LaneId) (j : Job) : Part :=
  if s.changer.state = .faulted then
    let s := (s.failJob j .changerFault).laneFault k .changer
    match j with
    | .load _ p _ => if p = bay k.other then s.endLending k.other else s
    | _ => s
  else s.enqueue j

/-- An UNLOAD becomes pending and the lane enters UNLOADING (R105, R119). -/
def Part.startUnload (s : Part) (k : LaneId) : Part :=
  s.modLane k (fun l => { l with state := .unloading, pending := some .unload })

end Sys2Proof.Machine
end

