-- ==== Sys2Proof/Machine/Volumes.lean ====
section
/-! DEFINITION. The volume logic of a run: the scratch choice, LABEL, early warning, EOV, volume end, abandonment, run end (R111 to R122, R124). -/

namespace Sys2Proof.Machine

/-! ## The choice (R114, R124) -/

/-- Whether a record holds a cartridge that may be chosen, wherever it stands (R114). It looks at the occupancy alone: a slot
that the answer of a command in flight makes OCCUPIED after its magazine was opened can be chosen (R133; DESIGN CHOICE, log
entry 41). -/
def Part.isCandidate (s : Part) (r : LocRecord) : Bool :=
  r.occ == .occupied && r.state == some .scratch && (match r.label with
    | some l => validLabel l && !s.library.holds.contains l
    | none => false)

/-- The rank of a location's cartridge for lane `k`: its home slot 1 to 24, or 25 after all those for the lane's own bay;
none where the lane never chooses (R114). -/
def Part.rankOf (s : Part) (k : LaneId) (p : Loc) : Option Nat :=
  if p.val < 24 then some (locNum p)
  else if p = bay k then
    match (s.loc p).home with
    | some h => some (if h ≤ 24 then h else 25)
    | none => some 25
  else none

/-- The cartridge of lowest rank among those `p` holds for; the tie of a slot and the bay is the free choice of log
entry 9. -/
def Part.lowest (s : Part) (k : LaneId) (p : Loc → Bool) : Option Loc :=
  let ranked := locs.filterMap (fun q => if p q then (s.rankOf k q).map (fun n => (n, q)) else none)
  ranked.foldl (fun best x =>
    match best with
    | none => some x.2
    | some b =>
      let n := (s.rankOf k b).getD 0
      if x.1 < n then some x.2
      else if x.1 = n ∧ Config.bayFirst n = true ∧ x.2 = bay k then some x.2
      else some b) none

/-- The location lane `k` chooses, by its named slot or by rank (R114). -/
def Part.scratchChoice (s : Part) (k : LaneId) : Option Loc :=
  let n := (s.lane k).run.namedSlot
  s.lowest k (fun q => s.isCandidate (s.loc q) && (n == 0 || s.rankOf k q == some n))

/-- The lane enters LABELLING with fresh volume items and a LABEL pending (R115). -/
def Part.enterLabelling (s : Part) (k : LaneId) : Part :=
  match (s.lane k).run.chosen with
  | some c =>
    s.modLane k (fun l => { l with
      state := .labelling
      pending := some (.label 0)
      volume := some { label := c.label, set := l.run.set, number := l.run.nextVolume, twin := l.run.role == .twin,
                       nextSeq := 1, positions := 0, verified := 0, rewrites := [] } })
  | none => s

/-- The lane makes a choice for its next volume and brings the cartridge to its bay, or waits for media (R114). The record's
change marks the map section, since a load that fails at once gives the cartridge back (R151, R185). -/
def Part.chooseScratch (s : Part) (k : LaneId) : Part :=
  let choice := s.scratchChoice k
  let s := s.modLane k (fun l => { l with run := { l.run with namedSlot := 0 } })
  match choice, choice.bind (fun p => (s.loc p).label) with
  | some p, some l =>
    let cap := classCapacity (classOf l)
    let home := match s.rankOf k p with
      | some n => if n ≤ 24 then some n else (s.loc p).home
      | none => none
    let s := (s.setLoc p { s.loc p with state := some .opened }).touch .map
    let s := s.modLane k (fun x => { x with run := { x.run with
      chosen := some ⟨l, home, false⟩, ownCapacity := cap, capacities := (x.run.nextVolume, cap) :: x.run.capacities } })
    let s := s.relimit
    if p = bay k then s.enterLabelling k
    else if (s.loc (bay k)).occ = .occupied then s.startUnload k
    else (s.modLane k (fun x => { x with state := .loading })).request k (.load k p l)
  | _, _ => (s.modLane k (fun x => { x with state := .waitingMedia })).latch .noScratch

/-- Lanes in WAITING MEDIA make their choice again, two of them in an order that the manual leaves open (R114). -/
def Part.rechoose (s : Part) : Part :=
  let waits := fun (s : Part) (k : LaneId) => (s.lane k).state == .waitingMedia
  let go := fun (s : Part) (k : LaneId) => if waits s k then s.chooseScratch k else s
  if waits s .l0 && waits s .l1 then
    let (n, s) := s.choose
    let k := Config.firstLane n
    go (go s k) k.other
  else go (go s .l0) .l1

/-! ## Ends of runs (R119, R120) -/

/-- The run ends: its items return to none and the lane rests by its bay record (R120). -/
def Part.endRun (s : Part) (k : LaneId) : Part :=
  (s.leaveWaiters k).modLane k (fun l => { l with run := Run.none }) |>.rest k

/-- The streams bound to a lane. -/
def Part.boundStreams (s : Part) (k : LaneId) : List (Fin 8) := streamIds.filter (fun i => (s.stream i).lane == some k)

/-- The run ends at the volume number limit: the streams' records and the lane's blocks are given up (R119). The run is over
before its buffers go to a waiting lane, so that no block is owed to it any more. The streams are faulted, and their held writes
refused, in rising stream number, which decides the last refusal record (R58; DESIGN CHOICE, log entry 45). -/
def Part.endRunAtLimit (s : Part) (k : LaneId) : Part :=
  let streams := (s.boundStreams k).filter (fun i => (s.stream i).state == .record || (s.stream i).state == .ending)
  let s := streams.foldl (fun s i => s.faultStream i .limit) s
  ((s.modLane k (fun l => { l with queue := [] })).endRun k).cancelClaims k

/-- What a run does next without a volume: it ends, or makes its next choice (R119, R120, R122). -/
def Part.nextVolume (s : Part) (k : LaneId) : Part :=
  let l := s.lane k
  if l.run.stopAfter && l.queue.isEmpty then s.endRun k
  else if 65535 < l.run.nextVolume then s.endRunAtLimit k
  else s.chooseScratch k

/-- A home move of a lane with its run open has ended OK: a cartridge already chosen is loaded, else the run goes on
(R114, R119). -/
def Part.runAfterHome (s : Part) (k : LaneId) : Part :=
  match (s.lane k).run.chosen with
  | some c =>
    match c.home.bind locOf with
    | some p => (s.modLane k (fun l => { l with state := .loading })).request k (.load k p c.label)
    | none => s.nextVolume k
  | none => s.nextVolume k

/-! ## LABEL and DATA verified (R115, R116) -/

/-- A matched LABEL echo (R115). -/
def Part.labelVerified (s : Part) (k : LaneId) : Part :=
  match (s.lane k).volume with
  | none => s
  | some v =>
    if 32 ≤ s.span.length ∧ (s.findSpan v.label).isNone then s.laneFault k .tableFull
    else
      let entry : SpanEntry :=
        { label := v.label, set := v.set, number := v.number, twin := v.twin, mirror := .opened, cause := .none,
          positions := 0, verified := 0, eovVerified := false, runs := v.rewrites, absentFrom := 0, ranges := [] }
      let s := s.dropSpan v.label
      let s := { s with span := s.span ++ [entry] }
      let s := s.setVerified v.label false
      let s := if 2 ≤ v.number then s.latch .volumeChanged else s
      s.modLane k (fun l =>
        let run := { l.run with nextVolume := l.run.nextVolume + 1 }
        if run.stopAfter then { l with state := .closing, run := { run with due := l.queue.length } }
        else { l with state := .append, run := run })

/-- A stream range extended by a summary entry of a block of sequence `seq` (R116). -/
def extendRange (seq : Nat) (e : Summary) : List StreamRange → List StreamRange
  | [] => [⟨e.stream, e.first, e.last, seq, seq, none⟩]
  | r :: rs => if r.stream = e.stream then { r with last := e.last, lastBlock := seq } :: rs else r :: extendRange seq e rs

/-- A matched DATA echo extends the volume's span entry from the block's summary (R116). -/
def Part.dataVerified (s : Part) (k : LaneId) (seq : Nat) (summary : List Summary) : Part :=
  s.mirror k (fun e => { e with ranges := summary.foldl (fun rs x => extendRange seq x rs) e.ranges })

/-! ## Early warning and CLOSING (R117) -/

/-- A lane's close request: the open block it reaches closes; in twin mode that is the primary's (R79, R84). -/
def Part.closeRequest (s : Part) (k : LaneId) : Part := s.closeBlock (if s.twin.on then s.twin.primary else k)

/-- The lane enters CLOSING with the whole send queue due (R117, R120). -/
def Part.enterClosing (s : Part) (k : LaneId) : Part :=
  s.modLane k (fun l => { l with state := .closing, run := { l.run with due := l.queue.length } })

/-- Early warning on a lane in APPEND, and at the same event on the other lane of a twin run in APPEND (R117, R124). -/
def Part.earlyWarning (s : Part) (k : LaneId) : Part :=
  let warn := fun (s : Part) (k : LaneId) =>
    (s.enterClosing k).modLane k (fun l => { l with run := { l.run with warned := true } })
  let s := warn (s.closeRequest k) k
  if s.twinRun && (s.lane k.other).state == .append then warn s k.other else s

/-- Whether the head of the lane's send queue is due on the present volume (R87, R117). -/
def Lane.headDue (l : Lane) : Bool :=
  !l.queue.isEmpty && (match l.state, l.volume with
    | .append, _ => true
    | .closing, some v => decide (0 < l.run.due ∧ v.positions + 1 < l.run.limit)
    | _, _ => false)

/-! ## Abandonment (R121) -/

/-- A volume is abandoned with a suspect cause, or ends without EOV (`none`); its blocks are carried and the cartridge is
unloaded (R121). -/
def Part.abandon (s : Part) (k : LaneId) (cause : Option SuspectCause) : Part :=
  let s := ((s.releaseServed k).dropPending k).modLane k (fun l => { l with owedEov := none })
  let s := s.putBack k 0
  let mark := match cause with
    | some _ => CartState.suspect
    | none => CartState.full
  let s := if (s.lane k).volumeOpen then
      (s.markChosen k mark).mirror k (fun e => { e with mirror := mark, cause := cause.getD .none })
    else s.markChosen k .suspect
  ((s.leaveVolume k).carry k).startUnload k

/-! ## EOV (R118, R119) -/

/-- The last segment of a stream on the blocks now on lane `k`'s volume (R118, step 2). -/
def Part.lastOnVolume (s : Part) (k : LaneId) (i : Fin 8) : Option SegRef :=
  let sent := (s.lane k).sent.filterMap (fun e => match e.kind with
    | .data b => ((s.buffer b).summary.find? (fun x => x.stream == i)).map (·.last)
    | _ => none)
  match sent.getLast?, (s.lane k).volume with
  | some r, _ => some r
  | none, some v => (s.findSpan v.label).bind (fun e => (e.ranges.find? (fun x => x.stream == i)).map (·.last))
  | none, none => none

/-- The EOV list of lane `k`: the streams whose last segment on the volume is not LAST (R118, step 2). The index after 2^32 - 1
is kept as 2^32 (DESIGN CHOICE, log entry 40). -/
def Part.eovEntries (s : Part) (k : LaneId) : List (Fin 8 × Nat × Nat) :=
  streamIds.filterMap (fun i => match s.lastOnVolume k i with
    | some r => if r.flag then none else some (i, r.record, r.index + 1)
    | none => none)

/-- The lowest sequence given to a DATA entry that is still in the send queue, or 0 (R118, step 3). -/
def Lane.lowestGiven (l : Lane) : Nat := ((l.queue.filterMap (·.seq)).min?).getD 0

/-- The EOV is made pending with its list taken now (R118). -/
def Part.makeEov (s : Part) (k : LaneId) (seq rewrites : Nat) : Part :=
  let list := s.eovEntries k
  s.modLane k (fun l => { l with
    pending := some (.eov seq rewrites)
    owedEov := none
    run := { l.run with eovList := list, absentFrom := l.lowestGiven } })

/-- Whether an EOV of the lane is pending or stands in its Sent List. -/
def Lane.eovUnderWay (l : Lane) : Bool :=
  (match l.pending with
    | some (.eov ..) => true
    | _ => false) || l.sent.any (fun e => e.kind == .eov)

/-- In CLOSING with no DATA block due: the EOV is made pending, an owed one again, or the volume ends without it when no
position is left (R118). -/
def Part.eovStep (s : Part) (k : LaneId) : Part :=
  let l := s.lane k
  match l.state, l.volume with
  | .closing, some v =>
    match l.owedEov with
    | some (seq, rewrites) =>
      if l.run.ownCapacity ≤ v.positions then s.abandon k none
      else if l.headDue || l.eovUnderWay then s
      else s.makeEov k seq rewrites
    | none =>
      if l.headDue || l.eovUnderWay || l.run.ownCapacity ≤ v.positions then s
      else
        let from' := if s.twin.on then s.twin.primary else k
        let s := (s.boundStreams from').foldl Part.closeOpenSegment s
        (s.makeEov k v.nextSeq 0).modLane k
          (fun l => { l with volume := l.volume.map (fun v => { v with nextSeq := v.nextSeq + 1 }) })
  | _, _ => s

/-- A matched EOV echo: the volume ends (R119). -/
def Part.volumeEnd (s : Part) (k : LaneId) : Part :=
  let l := s.lane k
  let s := s.mirror k (fun e => { e with
    ranges := e.ranges.map (fun (r : StreamRange) =>
      match l.run.eovList.find? (fun x => x.1 == r.stream) with
      | some (_, rec, idx) => { r with continuation := some (rec, idx) }
      | none => r)
    absentFrom := l.run.absentFrom
    eovVerified := true
    mirror := .full })
  let s := (s.markChosen k .full).latch .eovDone
  ((s.leaveVolume k).carry k).startUnload k

/-! ## What the volume logic judges at the end of an event -/

/-- Early warning judged, then the EOV conditions (R117, R118). -/
def Part.volumeStep (s : Part) (k : LaneId) : Part :=
  let l := s.lane k
  let s := match l.state, l.volume with
    | .append, some v => if l.run.limit ≤ v.positions + 80 then s.earlyWarning k else s
    | _, _ => s
  s.eovStep k

/-- Both lanes judged: early warning and the EOV, lane 0's EOV once more because lane 1's early warning may have taken lane 0
of a twin run into CLOSING (R117, R118, R124). -/
def Part.judgeVolumes (s : Part) : Part := ((s.volumeStep .l0).volumeStep .l1).eovStep .l0

/-- The volume logic of both lanes; lanes in WAITING MEDIA choose again when a record changed, be it that it changed back at the
same event (R131; such a change marks the map section), or `again` holds (R114), and
both are judged once more by the limits that the choice left (R117, R118, R124). A lane that the event itself made choose
has done so before (DESIGN CHOICE, log entry 4). -/
def Part.volumeLogic (old s : Part) (again : Bool) : Part :=
  let s := s.judgeVolumes
  if again || recordsChanged old s || s.touched.contains .map then s.rechoose.judgeVolumes else s

end Sys2Proof.Machine
end

