-- ==== Sys2Proof/Machine/Jobs.lean ====
section
/-! DEFINITION. The read jobs on a lane: fetching a cartridge, loans, identity, chunks, the blocks returned, ends, suspension and resumption (R152 to R176). -/

namespace Sys2Proof.Machine

/-! ## Fetching a cartridge (R155, R156, R169) -/

/-- The label of the cartridge that the job having lane `k` wants. -/
def Part.jobLabel (s : Part) (k : LaneId) : Option Label :=
  match s.restoring k with
  | some j => j.volumes[j.current]?.map (·.label)
  | none => (s.verifying k).map (·.label)

/-- The job having lane `k` enters a phase, named for both kinds of job. -/
def Part.jobPhase (s : Part) (k : LaneId) (r : RestorePhase) (v : VerifyPhase) : Part :=
  match s.restoring k with
  | some _ => s.modRestore k (fun j => { j with phase := r })
  | none =>
    match s.verifying k with
    | some _ => s.modVerify k (fun j => { j with phase := v })
    | none => s

/-- A SEEK is made pending as the job's chunk (R157, R158). -/
def Part.makeSeek (s : Part) (k : LaneId) (a b : Nat) : Part :=
  (s.modLane k (fun l => { l with pending := some (.seek a b) })).modAccess k (fun x => { x with chunk := some (a, b) })

/-- The lane enters IDENTIFYING (R157). -/
def Part.beginIdentify (s : Part) (k : LaneId) : Part :=
  let s := (s.modLane k (fun l => { l with state := .identifying })).modAccess k
    (fun a => { a with identity := none, loan := .none, source := none })
  (s.jobPhase k .identifying .identifying).makeSeek k 0 0

/-- The lane enters LOADING and asks for the load of a label from `p` (R155). -/
def Part.loadFrom (s : Part) (k : LaneId) (p : Loc) (label : Label) : Part :=
  (s.modLane k (fun l => { l with state := .loading })).request k (.load k p label)

/-- The other lane is judged again and lends its cartridge; IN USE when it cannot (R156). -/
def Part.lend (s : Part) (k : LaneId) (label : Label) : Part × Option JobResult :=
  let o := k.other
  let r := s.loc (bay o)
  if (s.lane o).state = .idle ∧ r.occ = .occupied ∧ r.label = some label then
    let s := (s.startUnload o).modLane o (fun l => { l with lending := some ⟨false, false, none⟩ })
    ((s.modLane k (fun l => { l with state := .loading })).modAccess k (fun a => { a with loan := .unloading }), none)
  else (s, some .inUse)

/-- The label is looked up and the cartridge is brought to lane `k`; a result when the job must end (R155). -/
def Part.fetch (s : Part) (k : LaneId) (label : Label) : Part × Option JobResult :=
  let s := (s.modAccess k (fun a => { a with loan := .none, source := none })).jobPhase k .fetching .fetching
  let occupied := (s.loc (bay k)).occ == .occupied
  match s.findLabel label with
  | none => (s, some .volumeMissing)
  | some p =>
    if p = bay k then (s.beginIdentify k, none)
    else if p = bay k.other then
      if (s.lane k.other).state = .idle then
        if occupied then ((s.startUnload k).modAccess k (fun a => { a with loan := .clearing }), none)
        else s.lend k label
      else (s, some .inUse)
    else if occupied then ((s.startUnload k).modAccess k (fun a => { a with source := some p }), none)
    else (s.loadFrom k p label, none)

/-! ## Ends (R165, R173, R175) -/

/-- The verify job of lane `k` has ended, and the lane rests by its bay record (R173). -/
def Part.endVerify (s : Part) (k : LaneId) (r : JobResult) : Part :=
  let s := ((s.withdraw k).dropPending k).endOrder k
  (s.verifyOver k r).rest k

/-- The verify job enters FETCHING for its label (R169). -/
def Part.fetchVerify (s : Part) (k : LaneId) : Part :=
  match (s.lane k).verify with
  | none => s
  | some j =>
    let s := (s.modVerify k (fun j => { j with phase := .fetching })).modLane k (fun l => { l with unpack := Unpack.empty false })
    match s.fetch k j.label with
    | (s, some r) => s.endVerify k r
    | (s, none) => s

/-- A verify job suspended for a restore resumes (R175). -/
def Part.resumeVerify (s : Part) (k : LaneId) : Part :=
  match (s.lane k).verify with
  | some j => if j.phase = .suspended then s.fetchVerify k else s
  | none => s

/-- The restore of lane `k` has ended: the lane rests, a suspended verify resumes (R165). -/
def Part.endRestore (s : Part) (k : LaneId) (r : JobResult) : Part :=
  let s := ((s.withdraw k).dropPending k).endOrder k
  ((s.restoreOver k r).rest k).resumeVerify k

/-- Whether lane `k` has a SEEK outstanding. -/
def Lane.seeking (l : Lane) : Bool :=
  match l.outstanding with
  | some o => o.seek.isSome
  | none => false

/-- The restore of lane `k` ends early; with a chunk outstanding it waits in ENDING for the chunk's end (R165). -/
def Part.endEarly (s : Part) (k : LaneId) (r : JobResult) : Part :=
  let s := s.nameRestore k .incomplete (r != .memory)
  if (s.lane k).seeking then
    let restart := s.timer (60 * Config.second)
    let again := fun (o : Outstanding) => if o.timer.isNone then { o with timer := some restart } else o
    let s := s.modLane k (fun l => { l with outstanding := l.outstanding.map again })
    (s.modRestore k (fun j => { j with phase := .ending, early := true, result := r })).freeBuffer k
  else s.endRestore k r

/-- The job having lane `k` ends with a result of its fetching or its identity (R155, R157, R169). -/
def Part.endJob (s : Part) (k : LaneId) (r : JobResult) : Part :=
  if (s.restoring k).isSome then s.endEarly k r else s.endVerify k r

/-- The restore enters FETCHING for its current volume, its expected sequence at the range's first block (R155, R158). -/
def Part.fetchRestore (s : Part) (k : LaneId) : Part :=
  match (s.lane k).restore with
  | none => s
  | some j =>
    match j.volumes[j.current]? with
    | none => s
    | some v =>
      let s := s.modRestore k (fun j => { j with phase := .fetching, expected := v.firstBlock })
      match s.fetch k v.label with
      | (s, some r) => s.endEarly k r
      | (s, none) => s

/-- The restore takes the lane's unpack context in output mode and enters FETCHING (R153, R174). -/
def Part.startRestore (s : Part) (k : LaneId) : Part :=
  (s.modLane k (fun l => { l with unpack := Unpack.empty true, access := Access.none })).fetchRestore k

/-! ## Moves that end well (R98, R147, R156) -/

/-- A home move of lane `k` has ended OK for a lane with no run open (R98, R155, R156). The load is asked for from the location at
which the label stood on entry into FETCHING, with no new lookup, also where the opening of a magazine or a move has changed that
location's record meanwhile; the load then fails at its start, the lane enters FAULT and the job ends with LANE FAULT (R147; DESIGN
CHOICE, log entry 57). -/
def Part.jobAfterHome (s : Part) (k : LaneId) : Part :=
  match s.jobLabel k with
  | none => s.rest k
  | some label =>
    let a := (s.lane k).access
    if a.loan = .clearing then
      match s.lend k label with
      | (s, some r) => s.endJob k r
      | (s, none) => s
    else
      match a.source with
      | some p => s.loadFrom k p label
      | none => s.rest k

/-- A home move of lane `k` has ended OK (R98). -/
def Part.homeDone (s : Part) (k : LaneId) : Part :=
  if (s.lane k).state ≠ .unloading then s
  else if (s.lane k).run.isOpen then s.runAfterHome k
  else s.jobAfterHome k

/-- A load of lane `k` has ended OK (R147). -/
def Part.loadDone (s : Part) (k : LaneId) : Part :=
  if (s.lane k).state ≠ .loading then s
  else if (s.lane k).run.isOpen then s.enterLabelling k
  else if (s.jobLabel k).isSome then s.beginIdentify k
  else s.rest k

/-! ## Identity (R157, R162, R175) -/

/-- A READ of the SEEK 0..0 is judged for identity; the first qualifying label block decides (R157). -/
def Part.judgeIdentity (s : Part) (k : LaneId) (b : ReadBlock) (block : List Byte) : Part :=
  let s := s.freeBuffer k
  if (s.lane k).access.identity.isSome then s
  else if b.marker && b.kind == 1 && b.seq == 0 && b.folds then
    let l := s.jobLabel k
    s.modAccess k (fun a => { a with identity := some (l == some b.label && l == some (labelAt block 32)) })
  else s

/-- What should come next after a volume record of a restore: record, index, FIRST (R162). The rule gives a continuation and an
unfinished last no FIRST; the model takes it to be set exactly at index 0 (DESIGN CHOICE, log entry 49). -/
def VolRecord.next (v : VolRecord) : SegRef :=
  match v.continuation with
  | some (r, i) => ⟨r, i, i == 0⟩
  | none => if v.last.flag then ⟨v.last.record + 1, 0, true⟩ else ⟨v.last.record, v.last.index + 1, false⟩

/-- The continuity check of a restore's current volume (R162). FIRST is compared with the record and the index (DESIGN CHOICE, log
entry 49). -/
def Part.continuity (s : Part) (k : LaneId) : Part :=
  match (s.lane k).restore with
  | none => s
  | some j =>
    if j.current = 0 then s
    else
      match j.volumes[j.current - 1]?, j.volumes[j.current]? with
      | some a, some b => if a.next = b.first then s else s.nameRestore k .incomplete true
      | _, _ => s

/-- Identity passed: the lane and the job enter READING (R157, R162, R175). -/
def Part.identityPassed (s : Part) (k : LaneId) : Part :=
  let s := (s.modLane k (fun l => { l with state := .reading })).jobPhase k .reading .reading
  if (s.restoring k).isSome then s.continuity k
  else
    match (s.lane k).verify with
    | some j =>
      (j.kept.foldl (fun s (x : Fin 8 × Nat) => s.setSlot k x.1 (.discarding x.2)) s).modVerify k (fun j => { j with kept := [] })
    | none => s

/-- Identity failed or undecided: the cartridge in the bay becomes SUSPECT and the job ends (R157). -/
def Part.identityFailed (s : Part) (k : LaneId) : Part :=
  let r := s.loc (bay k)
  let s := if r.occ = .empty then s else s.setLoc (bay k) { r with state := some .suspect }
  s.endJob k .wrongVolume

/-! ## Chunks and blocks (R158, R159, R169, R170, R172) -/

/-- Sequences `a` through `b - 1` of a restore's volume are LOST (R159, R160). -/
def RestoreJob.lose (j : RestoreJob) (a b : Nat) : RestoreJob :=
  if a < b then { j with lost := j.lost + (b - a), gap := true } else j

/-- How many of the sequences `a` through `b - 1` are absent from the verified volume (R170). -/
def VerifyJob.absent (j : VerifyJob) (a b : Nat) : Nat :=
  if j.eovVerified ∧ j.absentFrom ≠ 0 then min b j.verified - max a j.absentFrom else 0

/-- Sequences `a` through `b - 1` of the verified volume are LOST, but for the absent ones (R170). -/
def VerifyJob.lose (j : VerifyJob) (a b : Nat) : VerifyJob :=
  let n := (b - a) - j.absent a b
  if 0 < n then { j.allGaps with lost := j.lost + n } else j

/-- The kind that the sequence of a verified volume calls for (R170). Sequence 0 calls for LABEL also where it is the last
verified one and the EOV is verified (DESIGN CHOICE, log entry 51). -/
def VerifyJob.kindAt (j : VerifyJob) (s : Nat) : Nat :=
  if s = 0 then 1 else if s = j.verified ∧ j.eovVerified then 3 else 2

/-- A READ of a restore's chunk (R159, R161, R165). -/
def Part.readRestore (s : Part) (k : LaneId) (j : RestoreJob) (b : ReadBlock) : Part :=
  let v := j.volumes[j.current]?
  let last := ((s.lane k).access.chunk.map (·.2)).getD 0
  let runs := (v.map (·.runs)).getD []
  if j.satisfied || j.phase == .ending then s.freeBuffer k
  else
    match b.judge runs j.expected last 2 with
    | .skipped => s.freeBuffer k
    | .damaged q =>
      (s.modRestore k (fun j => { j.lose j.expected q with damaged := j.damaged + 1, gap := true, expected := q + 1 })).freeBuffer k
    | .accepted q =>
      (s.modRestore k (fun j => { j.lose j.expected q with expected := q + 1 })).beginWalk k b.used

/-- The entries of an EOV payload, none when it is not well formed (R172). -/
def eovPayload (payload : List Byte) : Option (List (Fin 8 × Nat × Nat)) :=
  let n := (byteAt payload 0).toNat
  if 8 < n then none
  else
    let entries := (List.range n).filterMap (fun i =>
      (streamArg (byteAt payload (1 + 9 * i))).map (fun t => (t, field payload (2 + 9 * i) 4, field payload (6 + 9 * i) 4)))
    if entries.length = n ∧ (entries.map (·.1)).Nodup then some entries else none

/-- An accepted EOV is checked against the unpack context (R172). A slot whose next expected index is 2^32 matches no entry, whose
4-byte index holds at most 2^32 - 1 (DESIGN CHOICE, log entry 40). -/
def Part.checkEov (s : Part) (k : LaneId) (payload : List Byte) : Part :=
  match eovPayload payload with
  | none => s.modVerify k (fun j => { j.allGaps with accepted := j.accepted - 1, damaged := j.damaged + 1 })
  | some entries =>
    (s.decodings k).foldl (fun s (x : Fin 8 × Decoding) =>
      s.nameVerify k x.1 (if entries.contains (x.1, x.2.record, x.2.nextIndex) then .isPartial else .incomplete)) s

/-- A READ of a verify job's chunk (R170, R172). -/
def Part.readVerify (s : Part) (k : LaneId) (j : VerifyJob) (b : ReadBlock) (block : List Byte) : Part :=
  let last := ((s.lane k).access.chunk.map (·.2)).getD 0
  match b.judge j.runs j.expected last (j.kindAt b.seq) with
  | .skipped => (s.modVerify k (fun j => { j with skipped := j.skipped + 1 })).freeBuffer k
  | .damaged q =>
    (s.modVerify k (fun j => { (j.lose j.expected q).allGaps with damaged := j.damaged + 1, expected := q + 1 })).freeBuffer k
  | .accepted q =>
    let s := s.modVerify k (fun j => { j.lose j.expected q with accepted := j.accepted + 1, expected := q + 1 })
    match j.kindAt q with
    | 1 => s.freeBuffer k
    | 3 => (s.checkEov k (payloadOf block)).freeBuffer k
    | _ => s.beginWalk k b.used

/-- A complete READ is handed to the job having the lane (R96). -/
def Part.readDone (s : Part) (k : LaneId) (b : ReadBlock) (block : List Byte) : Part :=
  match s.restoring k with
  | some j =>
    if j.phase = .identifying then s.judgeIdentity k b block else s.readRestore k j b
  | none =>
    match s.verifying k with
    | some j => if j.phase = .identifying then s.judgeIdentity k b block else s.readVerify k j b block
    | none => s.freeBuffer k

/-- The SEEK outstanding has ended by END, or by FAULT with `media` naming END OF MEDIA (R157, R158, R169). -/
def Part.seekEnded (s : Part) (k : LaneId) (fault endOfMedia : Bool) : Part :=
  let chunk := (s.lane k).access.chunk
  let s := (s.endOrder k).modAccess k (fun a => { a with chunk := none })
  let identify := fun (s : Part) =>
    if !fault && (s.lane k).access.identity == some true then s.identityPassed k else s.identityFailed k
  match s.restoring k with
  | some j =>
    if j.phase = .identifying then identify s
    else if j.phase = .ending || j.satisfied then s
    else
      let stop := (if endOfMedia then (j.volumes[j.current]?).map (·.lastBlock) else chunk.map (·.2)).getD 0 + 1
      s.modRestore k (fun j => { j.lose j.expected stop with expected := max j.expected stop })
  | none =>
    match s.verifying k with
    | some j =>
      if j.phase = .identifying then identify s
      else
        let stop := (if endOfMedia then j.verified else (chunk.map (·.2)).getD 0) + 1
        s.modVerify k (fun j => { j.lose j.expected stop with expected := max j.expected stop, chunks := j.chunks + 1 })
    | none => s

/-! ## Progress at the end of an event (R158, R165, R172 to R174) -/

/-- Whether an own access of output of a restore of lane `k` is not answered yet (R165). -/
def Part.outputUnderWay (s : Part) (k : LaneId) (job : Nat) : Bool :=
  s.bus.ownLine.any (fun a => a.kind == .restoreOut k job)
    || (match s.bus.port with
      | some (.own a discarded) => a.kind == .restoreOut k job && !discarded
      | _ => false)

/-- A job in ENDING goes on as far as it can (R165). -/
def Part.endingStep (s : Part) (k : LaneId) (j : RestoreJob) : Part :=
  if j.early then s.endRestore k j.result
  else
    let s := s.nameRestore k (gapResult j.gap) true
    let cursor := match (s.lane k).restore with
      | some j => j.cursor
      | none => j.cursor
    match reportUnseen k (gapResult j.gap) none (j.effLast + 1 - cursor) s with
    | (s, false) => s
    | (s, true) => if s.outputUnderWay k j.id then s else s.endRestore k .complete

/-- Whether nothing of the lane's chunk or return buffer is left to wait for (R158). -/
def Lane.quiet (l : Lane) : Bool := l.access.chunk.isNone && l.buffer.isNone && l.access.walk.isNone

/-- The restore of lane `k` makes its next chunk, goes to its next volume or ends (R158, R165). -/
def Part.restoreStep (s : Part) (k : LaneId) : Part :=
  match s.restoring k with
  | none => s
  | some j =>
    if !(s.lane k).quiet then s
    else
      match j.phase, j.volumes[j.current]? with
      | .ending, _ => s.endingStep k j
      | .reading, some v =>
        if j.satisfied || (v.lastBlock < j.expected && j.volumes.length ≤ j.current + 1) then
          (s.modRestore k (fun j => { j with phase := .ending })).endingStep k j
        else if v.lastBlock < j.expected then
          (s.modRestore k (fun j => { j with current := j.current + 1 })).fetchRestore k
        else s.makeSeek k j.expected (min (j.expected + 63) v.lastBlock)
      | _, _ => s

/-- The verdict of a verify job that ends with COMPLETE (R173). -/
def Part.verdict (s : Part) (j : VerifyJob) : Part :=
  match s.findSpan j.label with
  | none => s
  | some _ =>
    if j.damaged + j.lost + j.failed = 0 then
      match s.findLabel j.label with
      | some p => s.setLoc p { s.loc p with verified := true }
      | none => s
    else
      let s := match s.findLabel j.label with
        | some p => s.setLoc p { s.loc p with state := some .suspect, verified := false }
        | none => s
      s.modSpan j.label (fun e => { e with mirror := .suspect, cause := .verifyFailed })

/-- The verify job enters ENDING and ends with COMPLETE; a restore that waits takes the context (R172 to R174). -/
def Part.completeVerify (s : Part) (k : LaneId) : Part :=
  let s := s.modVerify k (fun j => { j with phase := .ending })
  let s := (s.decodings k).foldl (fun s (x : Fin 8 × Decoding) =>
    let gap := match (s.lane k).verify with
      | some j => j.gaps[x.1]
      | none => false
    s.nameVerify k x.1 (if gap then .damaged else .isPartial)) s
  let s := match (s.lane k).verify with
    | some j => s.verdict j
    | none => s
  let s := s.endVerify k .complete
  match (s.lane k).restore with
  | some j => if j.phase = .waitingVerify then (s.modRestore k (fun j => { j with phase := .fetching })).startRestore k else s
  | none => s

/-- The verify job is suspended and the waiting restore takes the lane (R174). -/
def Part.suspendVerify (s : Part) (k : LaneId) : Part :=
  let opened := s.decodings k
  let s := opened.foldl (fun s (x : Fin 8 × Decoding) => s.nameVerify k x.1 .isPartial) s
  let s := s.modVerify k (fun j => { j with
    phase := .suspended, kept := j.kept ++ opened.map (fun x => (x.1, x.2.record)) })
  (s.modRestore k (fun j => { j with phase := .fetching })).startRestore k

/-- The verify job of lane `k` makes its next chunk, is suspended or ends (R169, R172, R174). -/
def Part.verifyStep (s : Part) (k : LaneId) : Part :=
  match s.verifying k with
  | none => s
  | some j =>
    if j.phase ≠ .reading ∨ (s.lane k).quiet = false then s
    else if j.verified < j.expected then s.completeVerify k
    else if (s.lane k).restore.isSome then s.suspendVerify k
    else s.makeSeek k j.expected (min (j.expected + 63) j.verified)

/-- A borrower whose lender left UNLOADING before its UNLOADED return ends with IN USE (R156). -/
def Part.loanStep (s : Part) (k : LaneId) : Part :=
  if (s.lane k).access.loan = .unloading ∧ (s.lane k.other).lending = none then s.endJob k .inUse else s

/-- What the lanes judge at the end of an event: read jobs, the volume logic, loans, lanes that follow their bays.
`again` says that a label left the Hold List or RETIRE was taken (R114). -/
def settle (old s : Part) (again : Bool) : Part :=
  let jobs := fun (s : Part) (k : LaneId) => (s.verifyStep k).restoreStep k
  let s := jobs (jobs s .l0) .l1
  let s := Part.volumeLogic old s again
  let s := (s.loanStep .l0).loanStep .l1
  (s.follow .l0).follow .l1

end Sys2Proof.Machine
end

