-- ==== Sys2Proof/Machine/Lanes.lean ====
section
/-! DEFINITION. The order protocol: the send window, the return window, echoes and the lane timers (R87 to R103). -/

namespace Sys2Proof.Machine

/-! ## Orders and stamping (R87, R89, R90) -/

/-- An order header that is no block (section 11.3). -/
def orderHeader (kind first last : Nat) (k : LaneId) : List Byte :=
  markerBlock ++ [byteOf kind] ++ zeros 11 ++ leBytes 4 first ++ leBytes 4 last ++ zeros 2 ++ [byteOf k.num] ++ zeros 5

/-- A LABEL's payload before its zero fill (R115). -/
def labelPayload (v : Volume) (capacity : Nat) : List Byte :=
  labelBytes v.label ++ leBytes 2 v.set ++ leBytes 2 v.number ++ [boolByte v.twin, byteOf (classOf v.label)]
  ++ leBytes 4 capacity

/-- An EOV's payload before its zero fill (R118). A next segment index of 2^32 shows its low 32 bits, 0 (DESIGN CHOICE, log
entry 40). -/
def eovBytes (entries : List (Fin 8 × Nat × Nat)) : List Byte :=
  byteOf entries.length :: entries.flatMap (fun e => byteOf e.1.val :: (leBytes 4 e.2.1 ++ leBytes 4 e.2.2))

/-- A stamped header (R89). -/
def stampHeader (k : LaneId) (v : Volume) (kind rewrites segments seq used : Nat) (carried : Bool) : List Byte :=
  headerBytes kind ((if v.twin then 1 else 0) + (if carried then 2 else 0)) rewrites segments (labelBytes v.label) seq
    v.set v.number used k.num

/-- The item a lane chooses at a read of offset 0 (R87). -/
def Lane.chooseItem (l : Lane) : Served :=
  if l.state = .fault ∨ l.held = true then .idle
  else
    match l.pending with
    | some (.label r) => if l.sent.length < 8 then .label r else .idle
    | some (.eov q r) => if l.sent.length < 8 then .eov q r else .idle
    | some (.seek a b) => .seek a b
    | some .unload => .unload
    | none =>
      match l.queue, l.volume with
      | e :: _, some v => if l.sent.length < 8 ∧ l.headDue = true then .data e (e.seq.getD v.nextSeq) else .idle
      | _, _ => .idle

/-- A chosen item as it is served: the header, and for a block its checks and generated payload (R89, R90). -/
def Part.stamp (s : Part) (k : LaneId) (item : Served) : Serving :=
  let l := s.lane k
  let order := fun (kind a b : Nat) (committed : Bool) =>
    { id := l.nextServing, item := item, next := 0, committed := committed, timer := none,
      header := orderHeader kind a b k, headerCheck := 0, payloadCheck := 0, payload := [] : Serving }
  let block := fun (header payload : List Byte) (check : Nat) =>
    { id := l.nextServing, item := item, next := 0, committed := true, timer := none,
      header := header, headerCheck := foldCheck header, payloadCheck := check, payload := payload : Serving }
  match item, l.volume with
  | .data e q, some v =>
    let b := s.buffer e.buf
    block (stampHeader k v 2 e.rewrites b.segments q b.used e.carried) [] b.check
  | .label r, some v =>
    let p := labelPayload v l.run.ownCapacity
    block (stampHeader k v 1 r 0 0 32 false) p (foldCheck (padTo Config.payloadBytes p))
  | .eov q r, some v =>
    let p := eovBytes l.run.eovList
    block (stampHeader k v 3 r 0 q p.length false) p (foldCheck (padTo Config.payloadBytes p))
  | .seek a b, _ => order 0x10 a b true
  | .unload, _ => order 0x11 0 0 true
  | _, _ => order 0x12 0 0 false

/-- The lane chooses what to serve, stamps it and serves it from offset 0 (R87, R89). -/
def Part.chooseServe (s : Part) (k : LaneId) : Part :=
  let item := (s.lane k).chooseItem
  let v := s.stamp k item
  s.modLane k (fun l =>
    let l := { l with serving := some v, nextServing := l.nextServing + 1 }
    match item, l.queue with
    | .data e q, x :: rest =>
      if e.seq.isSome then l
      else { l with
        queue := { x with seq := some q } :: rest
        volume := l.volume.map (fun v => { v with nextSeq := v.nextSeq + 1 }) }
    | _, _ => l)

/-- The trailer a block is served with (R90). -/
def Serving.trailer (v : Serving) : List Byte :=
  match v.item with
  | .data .. | .label _ | .eov .. => trailerBytes v.payloadCheck v.headerCheck
  | _ => []

/-- The served bytes from `off`, the payload of a DATA block given from offset `poff` (R90). -/
def Serving.bytes (v : Serving) (off n : Nat) (poff : Nat) (payload : List Byte) : List Byte :=
  (List.range n).map (fun i =>
    let o := off + i
    if o < 32 then byteAt v.header o
    else if 32752 ≤ o then byteAt v.trailer (o - 32752)
    else
      match v.item with
      | .data .. => byteAt payload (o - poff)
      | _ => byteAt v.payload (o - 32))

/-! ## Sent and delivered (R91, R92) -/

/-- The run items after a LABEL was sent on the cartridge of label `l` (R122). -/
def Run.labelSent (r : Run) (l : Label) : Run :=
  { r with chosen := r.chosen.map (fun c => { c with labelled := c.labelled || c.label == l }) }

/-- A LABEL has been sent on the cartridge of lane `k`'s volume: every lane whose chosen cartridge it is knows it, since R122 asks
whether a LABEL was sent, not by which lane (DEDUCED, log entry 30). -/
def Part.noteLabel (s : Part) (k : LaneId) : Part :=
  match (s.lane k).volume with
  | some v =>
    let f := fun (l : Lane) => { l with run := l.run.labelSent v.label }
    (s.modLane k f).modLane k.other f
  | none => s

/-- The read covering offset 32767 has been answered: a committed block is sent; the lane serves nothing (R88, R91). -/
def Part.itemFinished (s : Part) (k : LaneId) (v : Serving) : Part :=
  let now := s.now
  let entry := fun (kind : SentKind) (seq rewrites : Nat) (carried : Bool) =>
    SentEntry.mk kind seq rewrites carried v.headerCheck v.payloadCheck now
  let sent := fun (s : Part) (e : SentEntry) => s.modLane k (fun l => { l with
    sent := l.sent ++ [e], volume := l.volume.map (fun x => { x with positions := x.positions + 1 }) })
  let s := s.modLane k (fun l => { l with serving := none })
  match v.item with
  | .data e q =>
    let s := (sent s (entry (.data e.buf) q e.rewrites e.carried)).setCopy k e.buf .sent
    s.modLane k (fun l => { l with
      queue := l.queue.drop 1
      run := { l.run with due := if l.state = .closing then l.run.due - 1 else l.run.due } })
  | .label r => ((sent s (entry .label 0 r false)).modLane k (fun l => { l with pending := none })).noteLabel k
  | .eov q r => (sent s (entry .eov q r false)).modLane k (fun l => { l with pending := none })
  | _ => s

/-- The read covering offset 31 of a SEEK or UNLOAD has been answered: the order is delivered (R92). -/
def Part.delivered (s : Part) (k : LaneId) (v : Serving) : Part :=
  let t := s.timer (60 * Config.second)
  let go := fun (seek : Option (Nat × Nat)) => s.modLane k (fun l => { l with
    pending := none
    outstanding := some ⟨seek, some t⟩
    serving := some { v with committed := false, timer := none } })
  match v.item with
  | .seek a b => go (some (a, b))
  | .unload => go none
  | _ => s

/-- A send read of the serving item is answered OKAY with its bytes: the next expected offset moves on, the partial-read
timer starts, an order is delivered and an item finished (R88, R91 to R93). -/
def Part.answerSend (s : Part) (k : LaneId) (id : Nat) (v : Serving) (off beats poff : Nat) (payload : List Byte) : Part :=
  let stop := off + 8 * beats
  let s := s.okay id (v.bytes off (8 * beats) poff payload)
  let v := { v with next := stop, timer := if v.committed then some (s.timer (30 * Config.second)) else none }
  let s := s.modLane k (fun l => { l with serving := some v })
  let s := if v.committed && decide (off ≤ 31 ∧ 31 < stop) then s.delivered k v else s
  if 32767 < stop then
    match (s.lane k).serving with
    | some v => if v.committed then s.itemFinished k v else s.modLane k (fun l => { l with serving := none })
    | none => s
  else s

/-! ## Send reads (R88, R90) -/

/-- A send read of the serving item is served: at once from the lane's own content, or with an own read of exactly the
payload beats it covers (R90). -/
def Part.serveRead (s : Part) (k : LaneId) (id : Nat) (off beats : Nat) : Part :=
  match (s.lane k).serving with
  | none => s
  | some v =>
    let lo := max off 32
    let hi := min (off + 8 * beats) 32752
    match v.item with
    | .data e _ =>
      if lo < hi then
        let s := s.modLane k (fun l => { l with serving := some { v with timer := none } })
        (s.setWait id (.send k v.id off)).pushOwn [readBurst (.poolRead k id) (s.bufferBase e.buf + lo) ((hi - lo) / 8)]
      else s.answerSend k id v off beats 0 []
    | _ => s.answerSend k id v off beats 0 []

/-- A send read at window offset `off` of `beats` beats is judged (R88). -/
def Part.sendRead (s : Part) (k : LaneId) (id off beats : Nat) : Part :=
  if off = 0 then
    if (s.lane k).committed then s.serveRead k id 0 beats else (s.chooseServe k).serveRead k id 0 beats
  else
    match (s.lane k).serving with
    | some v => if v.next = off then s.serveRead k id off beats else s.refuse id .sequence (.send k)
    | none => s.refuse id .sequence (.send k)

/-- The send reads of lane `k` whose own reads are no longer on the line or the port are refused with SEQUENCE (R38,
R109). -/
def Part.refuseLost (s : Part) (k : LaneId) : Part :=
  let lost := s.bus.waiting.filterMap (fun x => match x.wait with
    | .send k' _ _ =>
      let onPort := match s.bus.port with
        | some (.own a _) => a.kind == .poolRead k x.id
        | _ => false
      if k' == k && !onPort && s.bus.ownLine.all (fun a => a.kind != .poolRead k x.id) then some x.id else none
    | _ => none)
  lost.foldl (fun s id => s.refuse id .sequence (.send k)) s

/-- A memory FAULT on a pool access of lane `k`: its other own accesses leave the line and the lane faults (R38). -/
def Part.poolFault (s : Part) (k : LaneId) : Part :=
  ((s.dropOwn (OwnKind.ofLane k)).refuseLost k).laneFault k .memory

/-- The own read for send read `id` of lane `k` is answered (R31, R38, R90, R93). A send read that still waits when another
read of its item finishes the item gets SEQUENCE like that of a released item (R91, R93; DESIGN CHOICE, log entry 39). At a FAULT
this read's refusal with MEMORY is recorded first and the lane's other reads' with SEQUENCE after it, so that the last refusal
record is one of theirs (R33, R38; DESIGN CHOICE, log entry 48). -/
def Part.poolReadAnswered (s : Part) (k : LaneId) (id : Nat) (ok : Bool) (data : List Byte) : Part :=
  if ok then
    match s.findTxn id with
    | some x =>
      match x.wait, (s.lane k).serving with
      | .send _ sid off, some v =>
        if v.id = sid then s.answerSend k id v off x.txn.beats (max off 32) data else s.refuse id .sequence (.send k)
      | .send .., none => s.refuse id .sequence (.send k)
      | _, _ => s
    | none => s
  else (s.refuse id .memory (.send k)).poolFault k

/-- The block in buffer `b` is discarded after a memory FAULT on a write into it (R80). -/
def Part.discardBlock (s : Part) (b : Nat) : Part :=
  let f := fun (s : Part) (k : LaneId) =>
    let s := if (s.asm k).openBlock = some b then s.modAsm k (fun a => { a with openBlock := none, timer := none }) else s
    s.modLane k (fun l => { l with
      serving := match l.serving with
        | some v => (match v.item with
          | .data e _ => if e.buf = b ∧ v.committed = true then none else some v
          | _ => some v)
        | none => none
      run := { l.run with due := l.run.due - ((l.queue.take l.run.due).filter (fun e => e.buf == b)).length }
      queue := l.queue.filter (fun e => e.buf ≠ b) })
  (f (f s .l0) .l1).release [b]

/-- A write into pool buffer `b` for block `blk` of origin lane `k` is answered (R38, R80). -/
def Part.poolWriteAnswered (s : Part) (k : LaneId) (b blk : Nat) (ok : Bool) : Part :=
  if ok then s
  else
    let s := s.poolFault k
    let x := s.buffer b
    if x.blk = blk ∧ x.state ≠ .free then s.discardBlock b else s

/-! ## Echoes (R99 to R102) -/

/-- Whether an echo matches the oldest Sent List entry (R99). -/
def SentEntry.matchesEcho (e : SentEntry) (r : Return) : Bool :=
  field r.bytes 16 4 == e.seq && field r.bytes 6 1 == e.rewrites
    && r.headerFold.value == e.headerCheck && r.payloadFold.value == e.payloadCheck
    && slice r.bytes 32752 16 == trailerBytes e.payloadCheck e.headerCheck

/-- The oldest entry's echo has matched (R100). -/
def Part.echoMatched (s : Part) (k : LaneId) (e : SentEntry) : Part :=
  let s := s.modLane k (fun l => { l with
    sent := l.sent.drop 1
    volume := l.volume.map (fun v => { v with verified := e.seq })
    stale := [] })
  match e.kind with
  | .data b =>
    let summary := (s.buffer b).summary
    (s.dataVerified k e.seq summary).copyDone k b
  | .label => s.labelVerified k
  | .eov => s.volumeEnd k

/-- The oldest entry's echo has failed (R101): everything sent is put back, or at a rewrite limit the volume is
abandoned. A pending EOV becomes the owed EOV, so that the blocks put back go first. -/
def Part.echoFailed (s : Part) (k : LaneId) : Part :=
  let l := s.lane k
  let s := s.latch .echoRetry
  let runs := (l.volume.map (·.rewrites)).getD []
  if l.sent.any (fun e => 3 ≤ e.rewrites + 1) || 8 ≤ runs.length then s.abandon k (some .rewriteLimit)
  else
    let run := ((l.sent.head?.map (·.seq)).getD 0, (l.sent.getLast?.map (·.seq)).getD 0)
    let s := match l.volume with
      | some v => if l.volumeOpen then s.modSpan v.label (fun e => { e with runs := e.runs ++ [run] }) else s
      | none => s
    let s := s.modLane k (fun l => { l with
      volume := l.volume.map (fun v => { v with rewrites := v.rewrites ++ [run] })
      stale := (l.sent.drop 1).map (fun e => (e.seq, e.rewrites)) })
    let s := match (s.lane k).serving with
      | some v => (match v.item with
        | .data .. | .eov .. => s.releaseServed k
        | _ => s)
      | none => s
    let s := s.modLane k (fun l => match l.pending with
      | some (.eov q r) => { l with pending := none, owedEov := some (q, r) }
      | _ => l)
    let orders := l.sent.filterMap (fun e => match e.kind with
      | .data _ => none
      | _ => some e)
    let n := l.sent.length - orders.length
    let s := s.putBack k 1
    orders.foldl (fun s e => s.modLane k (fun l => match e.kind with
      | .label => { l with pending := some (.label (e.rewrites + 1)) }
      | _ => { l with owedEov := some (e.seq, e.rewrites + 1) }))
      (s.modLane k (fun l => { l with run := { l.run with due := if l.state = .closing then l.run.due + n else l.run.due } }))

/-- A complete echo is judged: stale and dropped, or against the oldest Sent List entry (R99, R102). -/
def Part.judgeEcho (s : Part) (k : LaneId) (r : Return) : Part :=
  let pair := (field r.bytes 16 4, field r.bytes 6 1)
  let l := s.lane k
  if l.stale.contains pair then s.modLane k (fun l => { l with stale := l.stale.erase pair })
  else
    match l.sent with
    | e :: _ => if e.matchesEcho r then s.echoMatched k e else s.echoFailed k
    | [] => s

/-! ## Returns (R94 to R98) -/

/-- The kinds of returns (R94, R97). -/
inductive ReturnKind where
  | block
  | ended
  | faulted (r : FormatterFault)
  | unloaded
  deriving DecidableEq, Repr

/-- The kind a return's header gives; none when it is malformed (R94, R97). -/
def returnKind (h : List Byte) : Option ReturnKind :=
  if h.take 4 = markerBlock then some .block
  else if h.take 4 = [0x4B, 0x44, 0x53, 0x52] then
    match (byteAt h 4).toNat, (byteAt h 5).toNat with
    | 1, _ => some .ended
    | 2, 1 => some (.faulted .media)
    | 2, 2 => some (.faulted .noCartridge)
    | 2, 3 => some (.faulted .isProtected)
    | 2, 4 => some (.faulted .endOfMedia)
    | 3, _ => some .unloaded
    | _, _ => none
  else none

/-- The size of a return (R94). -/
def ReturnKind.size : ReturnKind → Nat
  | .block => Config.blockBytes
  | _ => 32

/-- Whether the lane has an UNLOAD outstanding. -/
def Lane.unloadOut (l : Lane) : Bool :=
  match l.outstanding with
  | some o => o.seek.isNone
  | none => false

/-- Whether the lane expects a return (R95). -/
def Lane.expects (l : Lane) (h : List Byte) : ReturnKind → Bool
  | .block =>
    (l.state != .fault && (!l.sent.isEmpty || l.stale.contains (field h 16 4, field h 6 1)))
      || (l.seeking && l.buffer.isNone)
  | .ended => l.seeking
  | .faulted _ => !l.sent.isEmpty || l.outstanding.isSome
  | .unloaded => l.unloadOut

/-- The lane fault code of a formatter's reason (R97). -/
def FormatterFault.code : FormatterFault → LaneCode
  | .media => .media | .noCartridge => .noCartridge | .isProtected => .isProtected | .endOfMedia => .endOfMedia

/-- A verify job's chunk ends by FAULT NO CARTRIDGE: its sequences not judged are LOST, and it counts among the chunks done
(R169). -/
def Part.verifyChunkEnds (s : Part) (k : LaneId) : Part :=
  match s.verifying k with
  | some j =>
    if j.phase = .reading ∧ (s.lane k).seeking = true then
      let stop := ((s.lane k).access.chunk.map (·.2)).getD 0 + 1
      s.modVerify k (fun j => { j.lose j.expected stop with expected := max j.expected stop, chunks := j.chunks + 1 })
    else s
  | none => s

/-- A complete FAULT return acts by what the lane is doing (R97). NO CARTRIDGE to a restore's chunk counts no sequence LOST, by
its row of R158. -/
def Part.faultReturn (s : Part) (k : LaneId) (r : FormatterFault) : Part :=
  let s := (s.modLane k (fun l => { l with lastFault := some r })).touch (.lane k)
  let l := s.lane k
  if !l.sent.isEmpty || l.seeking then
    match r with
    | .noCartridge => ((s.verifyChunkEnds k).unknownAt (bay k)).laneFault k .noCartridge
    | .media => if l.sent.isEmpty then s.seekEnded k true false else s.abandon k (some .media)
    | .isProtected => if l.sent.isEmpty then s.seekEnded k true false else s.abandon k (some .isProtected)
    | .endOfMedia => if l.sent.isEmpty then s.seekEnded k true true else s.abandon k none
  else if l.unloadOut then
    let s := s.endOrder k
    (if r = .noCartridge then s.unknownAt (bay k) else s).laneFault k r.code
  else s

/-- A complete UNLOADED return: the lane asks for its home move, or a lending lane's borrower asks for its load (R98,
R156). -/
def Part.unloadedReturn (s : Part) (k : LaneId) : Part :=
  let s := s.endOrder k
  match (s.lane k).lending with
  | none => s.request k (.home k)
  | some d =>
    if d.orphan then s.endLending k
    else
      let s := s.modLane k (fun l => { l with lending := some { d with unloaded := true, load := some s.changer.nextEntry } })
      match s.jobLabel k.other with
      | some label => (s.modAccess k.other (fun a => { a with loan := .loading })).loadFrom k.other (bay k) label
      | none => s.endLending k

/-- A complete return is acted on (R96 to R99). -/
def Part.returnDone (s : Part) (k : LaneId) (r : Return) (kind : ReturnKind) : Part :=
  match kind with
  | .block =>
    if (s.lane k).seeking then
      let t := s.timer (60 * Config.second)
      let restart := fun (o : Outstanding) => { o with timer := some t }
      let s := s.modLane k (fun l => { l with outstanding := l.outstanding.map restart, buffer := some r.bytes })
      s.readDone k (readBlock r.bytes r.headerFold r.payloadFold) r.bytes
    else s.judgeEcho k r
  | .ended => s.seekEnded k false false
  | .faulted f => s.faultReturn k f
  | .unloaded => s.unloadedReturn k

/-- The bytes of a return with more added, folded as they arrive (R94). -/
def Return.add (r : Return) (bytes : List Byte) : Return :=
  let n := r.bytes.length
  { bytes := r.bytes ++ bytes
    headerFold := r.headerFold.addAll (bytes.take (32 - n))
    payloadFold := r.payloadFold.addAll ((bytes.drop (32 - n)).take (32752 - max n 32)) }

/-- A return that the lane does not expect: its write is refused with ORDER, and it is discarded and counted (R95, R108). -/
def Part.unexpectedReturn (s : Part) (k : LaneId) (id : Nat) : Part :=
  (s.refuse id .order (.ret k)).modLane k
    (fun l => { l with ret := none, cut := none, unexpected := wrap32 (l.unexpected + 1) })

/-- A return write whose strobes have passed: taken into the return in progress, or refused with SEQUENCE or ORDER; a
completed return is acted on (R94, R95). Entry into FAULT discards a return in progress (R107, step 5); the write that goes
on from where it stood gets ORDER and is counted (R92, R103, R108), and those after it SEQUENCE (R95): DEDUCED, log
entry 37. -/
def Part.returnWrite (s : Part) (k : LaneId) (id off : Nat) (bytes : List Byte) : Part :=
  let s := if off = 0 then s.modLane k (fun l => { l with ret := none, cut := none }) else s
  let before : Option Return :=
    if off = 0 then some ⟨[], Fold.start, Fold.start⟩
    else
      match (s.lane k).ret with
      | some r => if r.bytes.length = off then some r else none
      | none => none
  match before with
  | none => if (s.lane k).cut = some off then s.unexpectedReturn k id else s.refuse id .sequence (.ret k)
  | some r =>
    let r' := r.add bytes
    if r'.bytes.length < 32 then (s.okay id []).modLane k (fun l => { l with ret := some r' })
    else
      let h := r'.bytes.take 32
      let expected := match returnKind h with
        | some kind => if 32 ≤ off || (s.lane k).expects h kind then some kind else none
        | none => none
      match expected with
      | none => s.unexpectedReturn k id
      | some kind =>
        if kind.size < r'.bytes.length then s.refuse id .sequence (.ret k)
        else if r'.bytes.length = kind.size then
          ((s.okay id []).modLane k (fun l => { l with ret := none })).returnDone k r' kind
        else (s.okay id []).modLane k (fun l => { l with ret := some r' })

/-! ## Lane timers (R92, R93, R103) -/

/-- The partial-read timer runs out: the item is released (R93). -/
def Part.partialReadTimer (s : Part) (k : LaneId) : Part :=
  match (s.lane k).serving with
  | some v => if v.committed && s.ranOut v.timer then s.releaseServed k else s
  | none => s

/-- The echo timer of the oldest Sent List entry runs out (R103). -/
def Part.echoTimer (s : Part) (k : LaneId) : Part :=
  match (s.lane k).sent with
  | e :: _ => if s.due ⟨e.sentAt, 60 * Config.second⟩ then s.laneFault k .echoTimeout else s
  | [] => s

/-- The return timer of the outstanding order runs out (R92). -/
def Part.returnTimer (s : Part) (k : LaneId) : Part :=
  match (s.lane k).outstanding with
  | some o => if s.ranOut o.timer then s.laneFault k .returnTimeout else s
  | none => s

end Sys2Proof.Machine
end

