-- ==== Sys2Proof/Machine/Changer.lean ====
section
/-! DEFINITION. The Changer Link: commands started, ended and timed out, FAULTED, notices, frames and the receiver (R133 to R135, R139 to R148). -/

namespace Sys2Proof.Machine

/-! ## Queue -/

/-- How many directive entries the queue holds (R146). -/
def Changer.directives (c : Changer) : Nat := (c.queue.filter (·.job.isDirective)).length

/-- The entry of a number leaves the queue. -/
def Part.dropEntry (s : Part) (id : Nat) : Part :=
  { s with changer := { s.changer with queue := s.changer.queue.filter (fun e => e.id ≠ id) } }

/-- The entry of a number changed by `f`. -/
def Part.modEntry (s : Part) (id : Nat) (f : Entry → Entry) : Part :=
  { s with changer := { s.changer with queue := s.changer.queue.map (fun e => if e.id = id then f e else e) } }

/-- A scan the part queues by itself joins, or is dropped with INVENTORY SKIPPED (R134, R135). -/
def Part.queueOwn (s : Part) (j : Job) : Part :=
  if s.changer.state = .faulted then (s.failJob j .changerFault).latch .inventorySkipped
  else if 4 ≤ s.changer.directives then (s.failJob j .queueFull).latch .inventorySkipped
  else s.enqueue j

/-- Every scan of an inventory entry has ended or been skipped (R148). -/
def Part.inventoryDone (s : Part) (id : Nat) : Part := (s.dropEntry id).latch .inventoryDone

/-! ## Outcomes given to owners (R144, R146, R147) -/

/-- A lane request has failed with a lane fault code, given to its lane unless it was cut off (R146, R147, R156). -/
def Part.requestFailed (s : Part) (e : Entry) (target : Option Loc) (cause : FailCause) (code : LaneCode) : Part :=
  let (entry, a, b) := e.job.failure
  let s := s.fail entry a (b <|> target) cause
  match e.job with
  | .load k _ _ => (if e.cut then s else s.laneFault k code).loanDone k e.id
  | .home k => if e.cut then s else s.laneFault k code
  | _ => s

/-- A lane request has ended OK (R147). -/
def Part.requestDone (s : Part) (e : Entry) : Part :=
  match e.job with
  | .load k _ _ => let s := s.loanDone k e.id; if e.cut then s else s.loadDone k
  | .home k => if e.cut then s else s.homeDone k
  | _ => s

/-! ## FAULTED (R145) -/

/-- An entry that FAULTED removes (R145, step 2). -/
def Part.failEntry (s : Part) (e : Entry) : Part :=
  match e.job with
  | .load .. | .home _ => s.requestFailed e none .changerFault .changer
  | .move .. => s.failJob e.job .changerFault
  | .inventory _ | .scanM => (s.failJob e.job .changerFault).latch .inventorySkipped

/-- The changer enters FAULTED, its outstanding command already ended (R145, steps 2 to 4). The entries dropped are recorded
as failed in the order of the queue, after the command's own failure; an inventory entry whose own SCAN was outstanding
and that has locations left is one of them (DESIGN CHOICE, log entry 29). -/
def Part.changerFaulted (s : Part) : Part :=
  let queue := s.changer.queue
  let s := { s with changer := { s.changer with state := .faulted, out := none, queue := [] } }
  ((queue.foldl Part.failEntry s).latch .changerFault).rise 37

/-! ## Ends of commands (R144) -/

/-- How a MOVE or SCAN ends: by its answer or by its timer. -/
inductive CmdEnd where
  | ok
  | sourceEmpty | targetFull | doorOpen | mechanism | timeout
  /-- Ended by entry into FAULTED through a MECHANISM FAULT notice (R145, step 1). -/
  | faulted
  deriving DecidableEq, Repr

/-- The cause a failed command is recorded with (R151). -/
def CmdEnd.cause : CmdEnd → FailCause
  | .ok | .mechanism => .mechanism
  | .sourceEmpty => .sourceEmpty | .targetFull => .targetFull | .doorOpen => .doorOpen | .timeout => .timeout
  | .faulted => .changerFault

/-- The map after a MOVE from `a` to `b` (R144, R145). -/
def Part.moveMap (s : Part) (a b : Loc) (e : CmdEnd) : Part :=
  match e with
  | .ok =>
    let r := s.loc a
    let home := if (bayLane b).isSome then homeOf a r else none
    let s := s.emptyAt a
    match r.occ with
    | .empty => s.emptyAt b
    | .unknown => s.setLoc b { LocRecord.unknown with home := home }
    | .occupied => s.setLoc b { r with home := home }
  | .sourceEmpty => s.emptyAt a
  | .targetFull => s.forgetAt b
  | .doorOpen => s
  | .mechanism | .timeout | .faulted => (s.unknownAt a).unknownAt b

/-- The map after a SCAN of `p`; `label` is what an OK answer read (R132, R144). -/
def Part.scanMap (s : Part) (p : Loc) (e : CmdEnd) (label : Option Label) : Part :=
  match e with
  | .ok =>
    match label with
    | some l => s.scanLabel p l
    | none => s.unlabelledAt p
  | .sourceEmpty => s.emptyAt p
  | _ => s.unknownAt p

/-- The changer after a command that leaves it in order: READY, or OFFLINE with a QUERY after a RESET PART (R144, R150). -/
def Part.commandOver (s : Part) (afterReset : Bool) : Part :=
  if afterReset then { s with changer := { s.changer with state := .offline, out := none } }.send .query none
  else { s with changer := { s.changer with state := .ready, out := none } }

/-- The entry whose command was outstanding. -/
def Part.outEntry (s : Part) (o : OutCommand) : Option Entry :=
  o.entry.bind (fun id => s.changer.queue.find? (fun e => e.id == id))

/-- A MOVE ends: the map, the changer's state, the owner's outcome (R144, R145). -/
def Part.moveEnded (s : Part) (o : OutCommand) (a b : Loc) (e : CmdEnd) : Part :=
  let entry := s.outEntry o
  let s := s.moveMap a b e
  let s := match o.entry with
    | some id => s.dropEntry id
    | none => s
  let bad := e == .mechanism || e == .timeout || e == .faulted
  let s := if bad then { s with changer := { s.changer with state := .faulted, out := none } } else s.commandOver o.afterReset
  let s := match entry with
    | some x =>
      if e == CmdEnd.ok then s.requestDone x
      else
        match x.job with
        | .load .. | .home _ => s.requestFailed x (some b) e.cause .changer
        | _ => s.fail .move (some a) (some b) e.cause
    | none => s
  if bad then s.changerFaulted else s

/-- A SCAN ends: the map, its entry, the changer's state (R144, R145, R148). An inventory entry with locations left stays
in the queue, and an end that makes the changer FAULTED drops it with INVENTORY SKIPPED (DESIGN CHOICE, log entry 29). -/
def Part.scanEnded (s : Part) (o : OutCommand) (p : Loc) (e : CmdEnd) (label : Option Label) : Part :=
  let entry := s.outEntry o
  let s := s.scanMap p e label
  let s := match entry with
    | some x =>
      match x.job with
      | .inventory toScan =>
        let s := if e == CmdEnd.ok then s else s.fail .inventory (some p) none e.cause
        if o.afterReset then s.dropEntry x.id else if toScan.isEmpty then s.inventoryDone x.id else s
      | _ => (if e == CmdEnd.ok then s else s.fail .scanM (some p) none e.cause).dropEntry x.id
    | none => s
  if e == .mechanism || e == .faulted then s.changerFaulted else s.commandOver o.afterReset

/-! ## Notices (R133 to R135, R145) -/

/-- The slots of a magazine (R130). -/
def magazineSlots : Magazine → List Loc
  | .left => slots.take 12
  | .right => slots.drop 12

/-- Whether a location is a slot of a magazine. -/
def inMagazine (m : Magazine) (p : Loc) : Bool := magazineOf p == some m

/-- A queued entry that has not started meets an opened magazine (R133, step 3); one in progress skips its slots (step 4). -/
def Part.entryMeetsOpen (m : Magazine) (s : Part) (e : Entry) : Part :=
  match e.job with
  | .load _ p _ => if !e.started && inMagazine m p then (s.dropEntry e.id).requestFailed e none .magazineOpen .changer else s
  | .move a b =>
    if !e.started && (inMagazine m a || inMagazine m b) then (s.dropEntry e.id).failJob e.job .magazineOpen else s
  | .inventory toScan =>
    if e.started then
      let left := toScan.filter (fun p => !inMagazine m p)
      let scanning := match s.changer.out with
        | some o => o.entry == some e.id
        | none => false
      if left.isEmpty && !scanning then s.inventoryDone e.id else s.modEntry e.id (fun e => { e with job := .inventory left })
    else s
  | _ => s

/-- MAGAZINE OPENED (R133). Entries that fail are recorded in the order of the queue, so that the last of them shows as the
last failure (DESIGN CHOICE, log entry 29). -/
def Part.magazineOpened (s : Part) (m : Magazine) : Part :=
  let s := { s with library := match m with
    | .left => { s.library with openL := true }
    | .right => { s.library with openR := true } }
  let s := (magazineSlots m).foldl Part.unknownAt s
  s.changer.queue.foldl (Part.entryMeetsOpen m) s

/-- MAGAZINE CLOSED (R134). -/
def Part.magazineClosed (s : Part) (m : Magazine) : Part :=
  let s := { s with library := match m with
    | .left => { s.library with openL := false }
    | .right => { s.library with openR := false } }
  s.queueOwn (.inventory (magazineSlots m))

/-- MAIL SLOT LOADED (R135). -/
def Part.mailLoaded (s : Part) : Part := (s.unlabelledAt mailSlot).queueOwn .scanM

/-- MAIL SLOT EMPTIED (R135). -/
def Part.mailEmptied (s : Part) : Part := s.emptyAt mailSlot

/-- MECHANISM FAULT (R145). -/
def Part.mechanismFault (s : Part) : Part :=
  if s.changer.state = .faulted then s
  else
    match s.changer.out with
    | some o =>
      match o.command with
      | .move a b => s.moveEnded o a b .faulted
      | .scan p => s.scanEnded o p .faulted none
      | .query => s.changerFaulted
    | none => s.changerFaulted

/-! ## QUERY (R143) -/

/-- A magazine's open bit of a QUERY answer, handled as a notice when it differs from the flag (R143). -/
def Part.showMagazine (s : Part) (m : Magazine) (shown : Bool) : Part :=
  if shown = s.isOpen m then s else if shown then s.magazineOpened m else s.magazineClosed m

/-- The mail slot's bit of a QUERY answer (R143). -/
def Part.showMail (s : Part) (shown : Bool) : Part :=
  let occ := (s.loc mailSlot).occ
  if shown then (if occ = .occupied then s else s.mailLoaded) else if occ = .empty then s else s.mailEmptied

/-- A QUERY ends by an answer OK: READY, and its state byte is applied to the map (R143), magazine L first, then R, then M
(DESIGN CHOICE, log entry 29). -/
def Part.queryOk (s : Part) (b : Byte) : Part :=
  let s := { s with changer := { s.changer with state := .ready, out := none } }
  (((s.showMagazine .left (b.getLsbD 0)).showMagazine .right (b.getLsbD 1))).showMail (b.getLsbD 2)

/-- A QUERY ends otherwise: the changer stays OFFLINE (R143). -/
def Part.queryFailed (s : Part) : Part := { s with changer := { s.changer with out := none } }

/-! ## Frames (R141, R142) -/

/-- A frame that nothing takes is STRAY (R141). -/
def Part.stray (s : Part) : Part :=
  { s with changer := { s.changer with strays := wrap32 (s.changer.strays + 1) } }

/-- An answer's result (R141). -/
def cmdEnd (b : Byte) : Option CmdEnd :=
  match b.toNat with
  | 0 => some .ok | 1 => some .sourceEmpty | 2 => some .targetFull | 3 => some .doorOpen | 4 => some .mechanism
  | _ => none

/-- The magazine a notice names (R142). -/
def magazineArg (ps : List Byte) : Option Magazine :=
  match ps with
  | [b] => if b = 0 then some .left else if b = 1 then some .right else none
  | _ => none

/-- A frame that passes the receiver is judged by its kind (R141, R142). -/
def Part.takeFrame (s : Part) (kind : Nat) (ps : List Byte) : Part :=
  match kind, s.changer.out with
  | 0xA1, some o =>
    match o.command, ps with
    | .move a b, [r] =>
      match cmdEnd r with
      | some e => s.moveEnded o a b e
      | none => s.stray
    | _, _ => s.stray
  | 0xA2, some o =>
    match o.command, ps with
    | .scan p, r :: rest =>
      match cmdEnd r with
      | some e =>
        if rest.isEmpty then s.scanEnded o p e none
        else if e == CmdEnd.ok && rest.length == 8 then s.scanEnded o p e (some (labelAt rest 0))
        else s.stray
      | none => s.stray
    | _, _ => s.stray
  | 0xA3, some o =>
    match o.command, ps with
    | .query, [r] =>
      match cmdEnd r with
      | some .ok | none => s.stray
      | some _ => s.queryFailed
    | .query, [r, b] => if r = 0 then s.queryOk b else s.stray
    | _, _ => s.stray
  | 0x40, _ =>
    match magazineArg ps with
    | some m => s.magazineOpened m
    | none => s.stray
  | 0x41, _ =>
    match magazineArg ps with
    | some m => s.magazineClosed m
    | none => s.stray
  | 0x42, _ => if ps.isEmpty then s.mailLoaded else s.stray
  | 0x43, _ => if ps.isEmpty then s.mailEmptied else s.stray
  | 0x44, _ => if ps.isEmpty then s.mechanismFault else s.stray
  | _, _ => s.stray

/-! ## The receiver (R140) -/

/-- The receiver set to a state. -/
def Part.setReceiver (s : Part) (r : Receiver) : Part := { s with changer := { s.changer with receiver := r } }

/-- A frame is discarded and counted (R140). -/
def Part.discardFrame (s : Part) : Part :=
  { s with changer := { s.changer with receiver := .hunting, discards := wrap32 (s.changer.discards + 1) } }

/-- A byte taken as if hunting: SYNC begins a frame, any other byte is discarded and not counted (R140). -/
def Part.hunt (s : Part) (b : Byte) : Part := if b = 0xA7 then s.setReceiver (.taking [] s.now) else s

/-- One byte ends on CRX (R140). Where it began after a gap of more than 20 ms that no FRAME_GAP has told of, the frame is dropped
now (DESIGN CHOICE, log entry 2). -/
def Part.receive (s : Part) (b : Byte) : Part :=
  match s.changer.receiver with
  | .hunting => s.hunt b
  | .taking bs last =>
    let bs := bs ++ [b]
    if last + Config.frameGap + Config.byteTime ≤ s.now then s.discardFrame.hunt b
    else if bs.length = 2 ∧ 24 < b.toNat then s.discardFrame
    else if 3 ≤ bs.length ∧ bs.length = (byteAt bs 1).toNat + 3 then
      if bs.foldl (· + ·) 0 = (0 : Byte) then
        (s.setReceiver .hunting).takeFrame (byteAt bs 0).toNat (slice bs 2 (byteAt bs 1).toNat)
      else s.discardFrame
    else s.setReceiver (.taking bs s.now)

/-- The gap after the last byte of a frame passes 20 ms, and the frame is dropped; before that the row changes nothing (R140). -/
def Part.frameGap (s : Part) : Part :=
  match s.changer.receiver with
  | .taking _ last => if last + Config.frameGap < s.now then s.discardFrame else s
  | .hunting => s

/-! ## Commands started (R139, R146 to R149) -/

/-- The command of an entry is sent, and the changer is BUSY (R139, R143). -/
def Part.startCommand (s : Part) (c : Command) (id : Nat) : Part :=
  let s := s.send c (some id)
  { s with changer := { s.changer with state := .busy } }

/-- Whether a lane load still fits at its start (R147). -/
def Part.loadFits (s : Part) (k : LaneId) (p : Loc) (l : Label) : Bool :=
  (s.loc p).occ == .occupied && (s.loc p).label == some l && (s.loc (bay k)).occ == .empty

/-- The destination of a home move of lane `k` (R147). -/
def Part.homeTarget (s : Part) (k : LaneId) : Option Loc :=
  let free := fun (p : Loc) => (s.loc p).occ == .empty && !s.inOpenMagazine p
  let home := (s.loc (bay k)).home.bind locOf
  match home.filter free with
  | some p => some p
  | none =>
    match slots.find? free with
    | some p => some p
    | none => if free mailSlot then some mailSlot else none

/-- An inventory entry's next SCAN starts, or the entry is done (R148). -/
def Part.nextScan (s : Part) (e : Entry) (toScan : List Loc) : Part :=
  match toScan.dropWhile s.scanSkipped with
  | p :: rest => (s.modEntry e.id (fun e => { e with started := true, job := .inventory rest })).startCommand (.scan p) e.id
  | [] => s.inventoryDone e.id

/-- The checks of a directive MOVE that name PARAMETER (R149, step 1). -/
def Part.moveParameter (s : Part) (a b : Loc) : Bool :=
  a == b || ((a == bay .l1 || b == bay .l1) && !s.pins.lnc) || (s.loc a).occ == .empty || (s.loc b).occ == .occupied

/-- The checks of a directive MOVE that name STATE, but for the changer's own (R149, step 2); what an UNKNOWN record
remembers is not used (R130). -/
def Part.moveState (s : Part) (a b : Loc) : Bool :=
  let busy := fun (p : Loc) => match bayLane p with
    | some k => (s.lane k).state != .empty && (s.lane k).state != .idle
    | none => false
  s.inOpenMagazine a || s.inOpenMagazine b || busy a || busy b
    || ((s.loc a).occ == .occupied && (s.loc a).state == some .opened)

/-- The entry chosen by R146, when the changer may start one. -/
def Part.nextEntry (s : Part) : Option Entry :=
  if s.changer.state ≠ .ready ∨ s.changer.out.isSome then none
  else
    match s.changer.queue.find? (fun e => !e.started && !e.job.isDirective) with
    | some e => some e
    | none =>
      match s.changer.queue.find? (fun e => e.started && e.job.isDirective) with
      | some e => some e
      | none => s.changer.queue.find? (fun e => !e.started)

/-- With the changer READY, the next entry's command is judged and started (R146 to R149). -/
def Part.commandStart (s : Part) : Part :=
  match s.nextEntry with
  | none => s
  | some e =>
    let begin := fun (s : Part) (c : Command) => (s.modEntry e.id (fun e => { e with started := true })).startCommand c e.id
    match e.job with
    | .load k p l =>
      if s.loadFits k p l then begin s (.move p (bay k)) else (s.dropEntry e.id).requestFailed e none .loadCheck .changer
    | .home k =>
      match s.homeTarget k with
      | some p => begin s (.move (bay k) p)
      | none => (s.dropEntry e.id).requestFailed e none .noHome .noHome
    | .move a b =>
      if s.moveParameter a b then (s.dropEntry e.id).failJob e.job .parameter
      else if s.moveState a b then (s.dropEntry e.id).failJob e.job .state
      else begin s (.move a b)
    | .inventory toScan => s.nextScan e toScan
    | .scanM => begin s (.scan mailSlot)

/-- The last byte of the outstanding command's frame leaves CTX: its answer timer starts (R139). -/
def Part.frameSent (s : Part) : Part :=
  match s.changer.out with
  | some o =>
    if o.timer.isSome then s
    else { s with changer := { s.changer with out := some { o with timer := some (s.timer o.command.timeout) } } }
  | none => s

/-- The outstanding command's answer timer runs out (R143, R144). -/
def Part.answerTimer (s : Part) : Part :=
  match s.changer.out with
  | some o =>
    if s.ranOut o.timer then
      match o.command with
      | .move a b => s.moveEnded o a b .timeout
      | .scan p => s.scanEnded o p .timeout none
      | .query => s.queryFailed
    else s
  | none => s

/-- While OFFLINE, a QUERY is sent 10 s after the last one that has ended (R143). -/
def Part.queryRetry (s : Part) : Part :=
  if s.changer.state = .offline ∧ s.changer.out.isNone = true
    ∧ s.due ⟨s.changer.querySent, 10 * Config.second⟩ = true then s.send .query none
  else s

/-- CLEAR ERRORS for the changer in FAULTED (R145). -/
def Part.clearChanger (s : Part) : Part :=
  if s.changer.state = .faulted then { s with changer := { s.changer with state := .offline } }.send .query none else s

end Sys2Proof.Machine
end

