-- ==== Sys2Proof/Machine/Path.lean ====
section
/-! DEFINITION. The Path Monitor: form, ranges, classification, and each transaction handed to its owner (R21 to R32). -/

namespace Sys2Proof

/-! ## Form and guarded bytes (R21, R25, R26) -/

/-- Whether a transaction is well formed (R21). -/
def Txn.formed (t : Txn) : Bool :=
  t.addr.toNat % 8 == 0 && 1 ≤ t.beats && t.beats ≤ 16 && t.addr.toNat % 4096 + 8 * t.beats ≤ 4096

/-- Whether a write in the directive area enables a guarded byte (R25). -/
def Txn.guarded (t : Txn) (off : Nat) : Bool :=
  t.enablesAny off 0x80 16 || t.enablesAny off 0x100 8
    || (List.range (8 * t.beats)).any (fun i => decide (0x200 ≤ off + i) && t.strobe i)

/-- Whether a write enables some but not all bytes of the Directive Word (R26). -/
def Txn.splitWord (t : Txn) (off : Nat) : Bool :=
  t.enablesAny off 0 8 && !(List.range 8).all (fun i => t.enables off i)

end Sys2Proof

namespace Sys2Proof.Machine

/-! ## Ranges -/

/-- The role number of a range (R190). -/
def roleRange (r : Fin 12) : Range :=
  if h : r.val < 8 then .intake ⟨r.val, h⟩
  else if r.val = 8 then .send .l0 else if r.val = 9 then .send .l1
  else if r.val = 10 then .ret .l0 else .ret .l1

/-- Every window role, rising. -/
def roles : List (Fin 12) := List.finRange 12

/-- Windows that are set, with their roles (R34). -/
def windowsSet (ws : Vector (Option Window) 12) : List (Fin 12 × Window) :=
  roles.filterMap (fun r => ws[r].map (fun w => (r, w)))

/-- The set windows with their roles (R34). -/
def Part.setWindows (s : Part) : List (Fin 12 × Window) := windowsSet s.path.windows

/-- A pool's range as a base and a size (R61). -/
def geometryRange : Option Geometry → List (Nat × Nat)
  | some g => [(g.base, Config.blockBytes * g.count)]
  | none => []

/-- The pool range as a base and a size (R61). -/
def Part.poolRange (s : Part) : List (Nat × Nat) := geometryRange s.pool.geometry

/-- The range that holds an address, and the offset in it, by the windows and the pool range in force (R23, R33, R35, R62). -/
def Part.rangeOf (s : Part) (a : Nat) : Range × Nat :=
  if within a s.areaBase 4096 then (.directive, a - s.areaBase)
  else
    match (windowsSet s.force.windows).find? (fun x => within a x.2.base x.2.size) with
    | some (r, w) => (roleRange r, a - w.base)
    | none => if (geometryRange s.force.pool).any (fun p => within a p.1 p.2) then (.pool, 0) else (.other, 0)

/-! ## Classification (R23) -/

/-- How the Path Monitor treats a transaction. -/
inductive Treatment where
  | refuse (r : Reason) (range : Range)
  /-- A single-beat read of the Condition Word (R27). -/
  | cond
  /-- A read of an intake or return window (R29, R32). -/
  | zeros
  | intake (i : Fin 8) (off : Nat)
  | send (k : LaneId) (off : Nat)
  | ret (k : LaneId) (off : Nat)
  | pass
  /-- A Parameter Block write while the directive's read of it is unanswered (R28). -/
  | hold
  deriving DecidableEq, Repr

/-- A write whose strobes must be one contiguous run: its treatment by the offset of its first enabled byte (R29, R32). -/
def contiguous (t : Txn) (off : Nat) (range : Range) (f : Nat → Treatment) : Treatment :=
  match enabledRun t.strobes with
  | some (lead, _) => f (off + lead)
  | none => .refuse .strobe range

/-- The treatment of a transaction by its form, its range and its direction (R21, R23). One that is not well formed is
recorded with the range that holds its first address (DESIGN CHOICE, log entry 34). -/
def Part.classify (s : Part) (t : Txn) : Treatment :=
  let (range, off) := s.rangeOf t.addr.toNat
  if !t.formed then .refuse .burst range
  else
    match range, t.write with
    | .directive, false =>
      if off ≤ 0x100 ∧ 0x100 < off + 8 * t.beats then (if t.beats = 1 then .cond else .refuse .burst range) else .pass
    | .directive, true =>
      if t.guarded off then .refuse .guarded range
      else if t.splitWord off then .refuse .strobe range
      else if s.readingParameters && s.writesParameters t then .hold
      else .pass
    | .intake i, true => contiguous t off range (.intake i)
    | .ret k, true => contiguous t off range (.ret k)
    | .send _, true => .refuse .direction range
    | .send k, false => .send k off
    | .intake _, false | .ret _, false => .zeros
    | .pool, true => if (List.range (8 * t.beats)).any t.strobe then .refuse .guarded range else .pass
    | .pool, false | .other, _ => .pass

/-! ## Handing on -/

/-- A transaction accepted: it gets a number and is unanswered (R22). -/
def Part.accept (s : Part) (t : Txn) : Nat × Part :=
  (s.bus.nextId, { s with bus := { s.bus with
    nextId := s.bus.nextId + 1, waiting := s.bus.waiting ++ [⟨s.bus.nextId, t, .line, none⟩] } })

/-- A transaction joins the client line (R24, R37). -/
def Part.pushClient (s : Part) (id : Nat) (t : Txn) : Part :=
  { s with bus := { s.bus with clientLine := s.bus.clientLine ++ [(id, t)] } }

/-- A system-side transaction is classified and handed to its owner (R23). -/
def Part.clientTransaction (s : Part) (t : Txn) : Part :=
  let treatment := s.classify t
  let (id, s) := s.accept t
  match treatment with
  | .refuse .guarded range => (s.refuse id .guarded range).latch .guarded
  | .refuse r range => s.refuse id r range
  | .cond => s.setWait id .cond
  | .zeros => s.okay id (zeros (8 * t.beats))
  | .intake i off => s.intakeWrite i id t off
  | .send k off => s.sendRead k id off t.beats
  | .ret k off => s.returnWrite k id off (enabledBytes t)
  | .pass => s.pushClient id t
  | .hold => s.hold id .param

/-- The held Parameter Block writes join the client line in the order they arrived, their hold timers running on until the answers
(R22, R28). -/
def Part.releaseParameters (s : Part) : Part :=
  let held := s.bus.waiting.filter (fun x => x.wait == .param)
  held.foldl (fun s x => (s.setWait x.id .line).pushClient x.id x.txn) s

end Sys2Proof.Machine
end

