-- ==== Sys2Proof/Machine/Operands.lean ====
section
/-! DEFINITION. The operand forms: the fields of the Parameter Block by directive (R190), and the Span Table image (R125 to R127, R191). -/

namespace Sys2Proof.Machine

/-! ## Parameter Block fields (R190) -/

/-- The byte at offset `o` of the Parameter Block. -/
def p8 (b : List Byte) (o : Nat) : Byte := byteAt b o
/-- The 2-byte field at offset `o`. -/
def p16 (b : List Byte) (o : Nat) : BitVec 16 := BitVec.ofNat 16 (field b o 2)
/-- The 4-byte field at offset `o`. -/
def p32 (b : List Byte) (o : Nat) : BitVec 32 := BitVec.ofNat 32 (field b o 4)
/-- The 8-byte field at offset `o`. -/
def p64 (b : List Byte) (o : Nat) : BitVec 64 := BitVec.ofNat 64 (field b o 8)

/-- The directive that a code names, with the fields it takes of a Parameter Block (R190 and the table of section 10.3).
RESET PART reads no block. -/
def readParameters (code : Nat) (b : List Byte) : Option Instr :=
  match code with
  | 0x01 => some (.setWindow (p8 b 0) (p32 b 4) (p32 b 8))
  | 0x02 => some (.setTiming (p16 b 0) (p16 b 2))
  | 0x03 => some (.setAttn (p8 b 0))
  | 0x10 => some (.setPool (p32 b 0) (p8 b 4))
  | 0x20 => some (.openStream (p8 b 0) (p8 b 1) (p32 b 4))
  | 0x21 => some (.openRecord (p8 b 0) (p64 b 8))
  | 0x22 => some (.endRecord (p8 b 0))
  | 0x23 => some (.flushStream (p8 b 0))
  | 0x24 => some (.closeStream (p8 b 0))
  | 0x30 => some (.append (p8 b 0) (p8 b 1) (p16 b 2))
  | 0x31 => some (.closeVolume (p8 b 0))
  | 0x32 => some (.endRun (p8 b 0))
  | 0x33 => some (.setTwin (p8 b 0) (p8 b 1))
  | 0x40 => some (.holdLane (p8 b 0))
  | 0x41 => some (.releaseLane (p8 b 0))
  | 0x42 => some (.cancelLane (p8 b 0))
  | 0x43 => some (.unload (p8 b 0))
  | 0x50 => some (.inventory (p8 b 0))
  | 0x51 => some (.move (p8 b 0) (p8 b 1))
  | 0x52 => some (.setHold (labelAt b 0) (p8 b 8))
  | 0x53 => some .clearHolds
  | 0x54 => some (.retire (labelAt b 0))
  | 0x60 => some (.restore (p8 b 0) (p8 b 1) (p16 b 2) (p8 b 4) (p32 b 8) (p32 b 12) (p32 b 16) (p32 b 20))
  | 0x61 => some (.restoreContinue (p8 b 0) (p32 b 16) (p32 b 20))
  | 0x62 => some (.verifyVolume (p8 b 0) (labelAt b 8))
  | 0x70 => some (.exportSpan (p32 b 0))
  | 0x71 => some (.importSpan (p32 b 0))
  | 0x72 => some (.forgetVolume (labelAt b 0))
  | 0x78 => some (.clearErrors (p8 b 0))
  | _ => none

/-- The codes of the table of section 10.3. -/
def directiveTable : List Nat :=
  [0x01, 0x02, 0x03, 0x10, 0x20, 0x21, 0x22, 0x23, 0x24, 0x30, 0x31, 0x32, 0x33, 0x40, 0x41, 0x42, 0x43,
   0x50, 0x51, 0x52, 0x53, 0x54, 0x60, 0x61, 0x62, 0x70, 0x71, 0x72, 0x78, 0x7F]

/-! ## The span image (section 11.8) -/

/-- The marker "KDST". -/
def markerImage : List Byte := [0x4B, 0x44, 0x53, 0x54]

/-- A stream range of an image entry. -/
def rangeBytes (r : StreamRange) : List Byte :=
  let (cr, ci) := r.continuation.getD (0, 0)
  [byteOf r.stream.val,
   byteOf ((if r.first.flag then 1 else 0) + (if r.last.flag then 2 else 0) + (if r.continuation.isSome then 4 else 0)), 0, 0]
  ++ leBytes 4 r.first.record ++ leBytes 4 r.first.index ++ leBytes 4 r.last.record ++ leBytes 4 r.last.index
  ++ leBytes 4 r.firstBlock ++ leBytes 4 r.lastBlock ++ leBytes 4 cr ++ leBytes 4 ci

/-- An image entry (R191). -/
def entryBytes (e : SpanEntry) : List Byte :=
  padTo 512 <|
    labelBytes e.label ++ leBytes 2 e.set ++ leBytes 2 e.number
    ++ [boolByte e.twin, byteOf e.mirror.num, byteOf e.cause.num, boolByte e.eovVerified]
    ++ leBytes 4 e.positions ++ leBytes 4 e.verified ++ [byteOf e.runs.length, byteOf e.ranges.length, 0, 0]
    ++ leBytes 4 e.absentFrom
    ++ padTo 64 (e.runs.flatMap (fun r => leBytes 4 r.1 ++ leBytes 4 r.2))
    ++ padTo 288 (e.ranges.flatMap rangeBytes)

/-- The image of a Span Table (R125, section 11.8). -/
def spanImage (t : List SpanEntry) : List Byte :=
  padTo 64 (markerImage ++ [byteOf t.length]) ++ t.flatMap entryBytes

/-- The state mirror of an image byte. -/
def mirrorOf (b : Byte) : Option CartState :=
  match b.toNat with
  | 2 => some .opened | 3 => some .full | 4 => some .interrupted | 5 => some .suspect
  | _ => none

/-- The suspect cause of an image byte. -/
def causeOf (b : Byte) : Option SuspectCause :=
  match b.toNat with
  | 0 => some .none | 1 => some .rewriteLimit | 2 => some .media | 3 => some .isProtected | 4 => some .verifyFailed
  | _ => none

/-- A stream range read from an image. -/
def readRange (b : List Byte) : Option StreamRange :=
  (streamArg (byteAt b 0)).map (fun t =>
    { stream := t
      first := ⟨field b 4 4, field b 8 4, (byteAt b 1).getLsbD 0⟩
      last := ⟨field b 12 4, field b 16 4, (byteAt b 1).getLsbD 1⟩
      firstBlock := field b 20 4
      lastBlock := field b 24 4
      continuation := if (byteAt b 1).getLsbD 2 then some (field b 28 4, field b 32 4) else none })

/-- Every element of a list of options, none when one is missing. -/
def allSome {α : Type} : List (Option α) → Option (List α)
  | [] => some []
  | none :: _ => none
  | some a :: rest => (allSome rest).map (fun l => a :: l)

/-- The checks of R126 on an entry whose named values and streams have been read. -/
def SpanEntry.valid (e : SpanEntry) : Bool :=
  1 ≤ e.set && 1 ≤ e.number && validLabel e.label && e.positions ≤ classCapacity (classOf e.label)
    && decide ((e.ranges.map (·.stream)).Nodup)
    && e.ranges.all (fun r => 1 ≤ r.firstBlock && r.firstBlock ≤ r.lastBlock && r.lastBlock ≤ e.verified)
    && (e.absentFrom == 0 || (e.eovVerified && e.absentFrom + 1 ≤ e.verified))

/-- An image entry read back, none when it is not valid (R126, R191). -/
def readEntry (b : List Byte) : Option SpanEntry :=
  let nr := (byteAt b 24).toNat
  let nt := (byteAt b 25).toNat
  if 8 < nr ∨ 8 < nt ∨ 1 < (byteAt b 12).toNat then none
  else
    match mirrorOf (byteAt b 13), causeOf (byteAt b 14),
      allSome ((List.range nt).map (fun i => readRange (slice b (96 + 36 * i) 36))) with
    | some m, some c, some ranges =>
      let e : SpanEntry :=
        { label := labelAt b 0, set := field b 8 2, number := field b 10 2, twin := byteAt b 12 == 1, mirror := m, cause := c
          positions := field b 16 4, verified := field b 20 4, eovVerified := (byteAt b 15).getLsbD 0
          runs := (List.range nr).map (fun i => (field b (32 + 8 * i) 4, field b (36 + 8 * i) 4))
          absentFrom := field b 28 4, ranges := ranges }
      if e.valid then some e else none
    | _, _, _ => none

/-- The entries' bytes of an image of `n` entries, without the header. -/
def imageEntries (n : Nat) (image : List Byte) : List (List Byte) :=
  (List.range n).map (fun i => slice image (64 + 512 * i) 512)

/-- The entries of an image, none when one is not valid or two carry one label (R126, R127). -/
def readImage (n : Nat) (image : List Byte) : Option (List SpanEntry) :=
  match allSome ((imageEntries n image).map readEntry) with
  | some es => if (es.map (·.label)).Nodup then some es else none
  | none => none

end Sys2Proof.Machine
end

