-- ==== Sys2Proof/Machine/Directives.lean ====
section
/-! DEFINITION. Every directive's judgement and effect, but RESET PART's: path, pool, streams, volumes, lanes, magazine, reading back, span table, CLEAR ERRORS. -/

namespace Sys2Proof.Machine

/-- What a directive leaves: the state after its effect, and its result and detail, none while its outcome is still to come. -/
abbrev Judged := Part × Option (Result × Nat)

/-- A directive refused: nothing changes (section 10.3). -/
def Part.refused (s : Part) (r : Result) : Judged := (s, some (r, 0))
/-- A directive accepted with a detail. -/
def Part.accepted (s : Part) (detail : Nat) : Judged := (s, some (.accepted, detail))

/-! ## Path (R35, R36, R184) -/

/-- The present destination regions of restore jobs and the 16 bytes at their open prefixes (R35, R62). -/
def Part.restoreAreas (s : Part) : List (Nat × Nat) :=
  [LaneId.l0, .l1].flatMap (fun k => match (s.lane k).restore with
    | some j => (j.destBase, j.destSize) :: (match j.openPrefix with
      | some a => [(a, 16)]
      | none => [])
    | none => [])

/-- The directive area as a base and a size. -/
def Part.areaRange (s : Part) : Nat × Nat := (s.areaBase, 4096)

/-- The set windows as bases and sizes, but for a role. -/
def Part.windowRanges (s : Part) (but : Option (Fin 12)) : List (Nat × Nat) :=
  (s.setWindows.filter (fun x => some x.1 ≠ but)).map (fun x => (x.2.base, x.2.size))

/-- Whether a range shares an address with one of a list. -/
def sharesAny (base size : Nat) (rs : List (Nat × Nat)) : Bool := rs.any (fun r => overlaps base size r.1 r.2)

/-- The sizes a window role may have (R34). -/
def allowedSize (r : Fin 12) (size : Nat) : Bool :=
  if r.val < 8 then [4096, 8192, 16384, 32768, 65536, 131072, 262144, 524288, 1048576].contains size else size == 32768

/-- A lane in EMPTY or IDLE. -/
def Lane.resting (l : Lane) : Bool := l.state == .empty || l.state == .idle

/-- The lane of a send or return role. -/
def roleLane (r : Fin 12) : LaneId := if r.val = 9 ∨ r.val = 11 then .l1 else .l0

/-- Whether the owner of a window role is active (R35, step 2). -/
def Part.roleActive (s : Part) (r : Fin 12) : Bool :=
  if h : r.val < 8 then (s.stream ⟨r.val, h⟩).state != .closed else !(s.lane (roleLane r)).resting

/-- SET WINDOW (R35). -/
def Part.setWindow (s : Part) (role : Byte) (base size : Nat) : Judged :=
  if h : role.toNat < 12 then
    let r : Fin 12 := ⟨role.toNat, h⟩
    if size ≠ 0 ∧ (allowedSize r size = false ∨ base % size ≠ 0) then s.refused .parameter
    else if (r.val = 9 ∨ r.val = 11) ∧ s.pins.lnc = false then s.refused .parameter
    else if s.roleActive r then s.refused .state
    else if size ≠ 0 ∧ sharesAny base size (s.areaRange :: s.windowRanges (some r) ++ s.poolRange ++ s.restoreAreas) = true then
      s.refused .overlap
    else
      let w := if size = 0 then none else some ⟨base, size⟩
      Part.accepted { s with path := { s.path with windows := s.path.windows.set r w } } 0
  else s.refused .parameter

/-- A count clamped to 1 to 255 (R36). -/
def clamp (n : Nat) : Nat := if n = 0 then 1 else if 255 < n then 255 else n

/-- SET TIMING (R36). -/
def Part.setTiming (s : Part) (hold idle : Nat) : Judged :=
  Part.accepted { s with path := { s.path with holdLimit := clamp hold, idleTime := clamp idle } }
    (if clamp hold ≠ hold ∨ clamp idle ≠ idle then 1 else 0)

/-- SET ATTN (R184); the line itself is judged at the end of the event. -/
def Part.setAttn (s : Part) (mode : Byte) : Judged :=
  match mode.toNat with
  | 0 => Part.accepted { s with unit := { s.unit with pulseMode := false } } 0
  | 1 => Part.accepted { s with unit := { s.unit with pulseMode := true } } 0
  | _ => s.refused .parameter

/-! ## Pool (R62) -/

/-- SET POOL (R62). -/
def Part.setPool (s : Part) (base count : Nat) : Judged :=
  let size := Config.blockBytes * count
  if base % Config.blockBytes ≠ 0 ∨ (count ≠ 0 ∧ (count < 8 ∨ 64 < count)) ∨ (count ≠ 0 ∧ 2 ^ 32 < base + size) then
    s.refused .parameter
  else if streamIds.any (fun i => (s.stream i).state != .closed)
      || [LaneId.l0, .l1].any (fun k => [LaneState.labelling, .append, .closing].contains (s.lane k).state)
      || s.pool.buffers.any (fun x => x.state != .free) then s.refused .state
  else if sharesAny base size (s.areaRange :: s.windowRanges none ++ s.restoreAreas) then s.refused .overlap
  else
    let pool := if count = 0 then { Pool.unset with nextBlk := s.pool.nextBlk }
      else { geometry := some ⟨base, count⟩, buffers := List.replicate count Buffer.blank, free := List.range count,
             waiters := [], nextBlk := s.pool.nextBlk }
    Part.accepted ({ s with pool := pool }.touch .pool) 0

/-! ## Streams (R42 to R46) -/

/-- OPEN STREAM (R42). -/
def Part.openStream (s : Part) (stream lane : Byte) (first : Nat) : Judged :=
  match streamArg stream, s.laneArg lane with
  | some i, some k =>
    if s.twin.on ∧ k ≠ s.twin.primary then s.refused .parameter
    else if (s.stream i).state ≠ .closed ∨ s.intakeSize i = 0 ∨ s.pool.geometry = none then s.refused .state
    else (s.modStream i (fun x => { x with state := .idle, lane := some k, nextRecord := .num first })).accepted 0
  | _, _ => s.refused .parameter

/-- OPEN RECORD (R43). -/
def Part.openRecord (s : Part) (stream : Byte) (length : Nat) : Judged :=
  match streamArg stream with
  | none => s.refused .parameter
  | some i =>
    let x := s.stream i
    if Config.maxRaw < length then s.refused .parameter
    else if x.state ≠ .idle then s.refused .state
    else
      match x.nextRecord with
      | .exhausted => s.refused .limit
      | .num n =>
        (s.setStream i { x with
          state := .record
          current := some n
          nextRecord := if n = 2 ^ 32 - 1 then .exhausted else .num (n + 1)
          recTaken := 0
          placed := 0
          nextIndex := .num 0
          declared := length
          pack := Packing.empty }).accepted (n % 65536)

/-- END RECORD (R44, R49). -/
def Part.endRecord (s : Part) (stream : Byte) : Judged :=
  match streamArg stream with
  | none => s.refused .parameter
  | some i =>
    if (s.stream i).state ≠ .record then s.refused .state
    else
      let s := s.modStream i (fun x => { x with state := .ending })
      ((s.endIfTaken i).rejudge i).accepted 0

/-- FLUSH STREAM (R45). -/
def Part.flushStream (s : Part) (stream : Byte) : Judged :=
  match streamArg stream with
  | none => s.refused .parameter
  | some i =>
    let x := s.stream i
    if x.state = .closed ∨ x.state = .faulted then s.refused .state
    else
      match x.seg with
      | .empty =>
        match x.lane with
        | some k => (s.flushTaken k).accepted 0
        | none => s.accepted 0
      | _ => ((s.closeOpenSegment i).modStream i (fun x => { x with flush := true })).accepted 0

/-- CLOSE STREAM (R46). -/
def Part.closeStream (s : Part) (stream : Byte) : Judged :=
  match streamArg stream with
  | none => s.refused .parameter
  | some i =>
    if (s.stream i).state = .idle ∨ (s.stream i).state = .faulted then
      ((s.setStream i Stream.blank).rejudge i).accepted 0
    else s.refused .state

/-! ## Volumes (R113, R117, R120, R123) -/

/-- A lane's run opens (R113). -/
def Part.openRun (s : Part) (k : LaneId) (role : Role) (set slot : Nat) : Part :=
  s.modLane k (fun l => { l with
    run := { Run.none with isOpen := true, role := role, set := set, nextVolume := 1, namedSlot := slot } })

/-- APPEND (R113). A named slot that is the home of two cartridges, one in the slot and one in the lane's bay, is a candidate
when one of them is (DESIGN CHOICE, log entry 9). -/
def Part.append (s : Part) (lane slot : Byte) (set : Nat) : Judged :=
  let n := slot.toNat
  match s.laneArg lane with
  | none => s.refused .parameter
  | some k =>
    let busy := fun (k : LaneId) => (s.lane k).run.isOpen || !(s.lane k).resting
    let atHome := fun (p : Loc) => (s.loc p).occ == .occupied && s.rankOf k p == some n
    if set = 0 ∨ 24 < n ∨ (s.twin.on = true ∧ k ≠ s.twin.primary) then s.refused .parameter
    else if s.pool.geometry = none ∨ busy k = true ∨ (s.twin.on = true ∧ busy k.other = true) then s.refused .state
    else if n ≠ 0 ∧ locs.any atHome = false then s.refused .notFound
    else if n ≠ 0 ∧ locs.any (fun p => atHome p && s.isCandidate (s.loc p)) = false then s.refused .state
    else
      let s' := (s.openRun k (if s.twin.on then .primary else .single) set n).chooseScratch k
      if s.twin.on then ((s'.openRun k.other .twin set 0).chooseScratch k.other).accepted 0 else s'.accepted 0

/-- CLOSE VOLUME (R117). -/
def Part.closeVolume (s : Part) (lane : Byte) : Judged :=
  match s.laneArg lane with
  | none => s.refused .parameter
  | some k =>
    match (s.lane k).state with
    | .append => (s.earlyWarning k).accepted 0
    | .closing => s.accepted 0
    | _ => s.refused .state

/-- END RUN on one lane (R120). -/
def Part.stopRun (s : Part) (k : LaneId) : Part :=
  let s := s.modLane k (fun l => { l with run := { l.run with stopAfter := true } })
  let s := (s.closeRequest k).leaveWaiters k
  if (s.lane k).state = .append then s.enterClosing k else s

/-- END RUN (R120). -/
def Part.endRunDirective (s : Part) (lane : Byte) : Judged :=
  match s.laneArg lane with
  | none => s.refused .parameter
  | some k =>
    let st := (s.lane k).state
    if st ≠ .append ∧ st ≠ .closing then s.refused .state
    else if (s.boundStreams k).any (fun i => (s.stream i).state != .closed && (s.stream i).state != .idle) then s.refused .state
    else if s.twin.on = true ∧ k ≠ s.twin.primary ∧ (s.lane s.twin.primary).run.isOpen = true then s.refused .state
    else
      let s := s.stopRun k
      (if s.twin.on = true ∧ k = s.twin.primary ∧ (s.lane k.other).run.isOpen = true then s.stopRun k.other else s).accepted 0

/-- SET TWIN (R123). Naming lane 1 on a part strapped for one lane gives PARAMETER, off as on (R40). For off R123 judges no
other primary lane number, and one above 1 keeps the lane that stood (DESIGN CHOICE, log entry 6). -/
def Part.setTwin (s : Part) (on primary : Byte) : Judged :=
  if 1 < on.toNat ∨ (on = 1 ∧ (1 < primary.toNat ∨ s.pins.lnc = false)) ∨ (primary = 1 ∧ s.pins.lnc = false) then
    s.refused .parameter
  else if [LaneId.l0, .l1].any (fun k => (s.lane k).run.isOpen || !(s.lane k).resting)
      || streamIds.any (fun i => (s.stream i).state != .closed) then s.refused .state
  else
    let p : LaneId := if primary = 0 then .l0 else if primary = 1 then .l1 else s.twin.primary
    Part.accepted { s with twin := ⟨on == 1, p⟩ } 0

/-! ## Lanes (R104 to R106) -/

/-- HOLD LANE (R104). -/
def Part.holdLane (s : Part) (lane : Byte) : Judged :=
  match s.laneArg lane with
  | none => s.refused .parameter
  | some k => (((s.releaseServed k).modLane k (fun l => { l with held := true })).touch (.lane k)).accepted 0

/-- RELEASE LANE (R104). -/
def Part.releaseLane (s : Part) (lane : Byte) : Judged :=
  match s.laneArg lane with
  | none => s.refused .parameter
  | some k => ((s.modLane k (fun l => { l with held := false })).touch (.lane k)).accepted 0

/-- The lane's chosen cartridge returns to SCRATCH where no LABEL was sent on it, unless its record has become UNKNOWN (R122). -/
def Part.returnChosen (s : Part) (k : LaneId) : Part :=
  match (s.lane k).run.chosen with
  | some c => if c.labelled then s else s.returnScratch c.label
  | none => s

/-- Whether the lane's chosen cartridge is OPEN in the map (R122). -/
def Part.chosenOpen (s : Part) (k : LaneId) : Bool :=
  match (s.lane k).run.chosen.bind (fun c => s.findLabel c.label) with
  | some p => (s.loc p).state == some .opened
  | none => false

/-- What becomes of the lane's cartridge at CANCEL LANE (R122). -/
def Part.cancelVolume (s : Part) (k : LaneId) : Part :=
  let l := s.lane k
  if l.volumeOpen ∨ l.state = .labelling then s.interruptVolume k
  else if s.chosenOpen k then s.returnChosen k
  else s

/-- CANCEL LANE on lane `k` (R106, R68, R122, R124). The run is over and the queue empty before the lane's claims on the pool
are discarded, so that a block which a waiting lane then closes is owed to that lane alone (R68, R80). The streams are faulted,
and their held writes refused, in rising stream number, which decides the last refusal record (R58; DESIGN CHOICE, log entry
45). -/
def Part.cancelWork (s : Part) (k : LaneId) : Part :=
  let streams := (s.boundStreams k).filter (fun i => (s.stream i).state != .faulted && (s.stream i).state != .closed)
  let s := streams.foldl (fun s i => s.faultStream i .cancelled) s
  let s := s.cancelVolume k
  let s := s.modLane k (fun l => { l with
    queue := [], pending := none, owedEov := none, sent := [], stale := [], serving := none, ret := none, outstanding := none,
    lending := none, volume := none, run := Run.none, held := false })
  let s := s.modLane k.other (fun l => if l.run.isOpen then { l with run := { l.run with limit := l.run.ownCapacity } } else l)
  let s := s.cancelClaims k
  let s := (s.endJobs k .cancelled).modLane k (fun l => { l with buffer := none, access := Access.none })
  let s := s.withdraw k
  if (s.lane k).state = .fault then s else s.rest k

/-- CANCEL LANE (R106). The lane section is rewritten at every CANCEL LANE that names a lane, also where neither the lane's state,
its code nor its send queue depth changes: the held flag, the label and the other items shown may have, and R110 does not say
whether that rewrites the section (DESIGN CHOICE, log entry 53). -/
def Part.cancelLane (s : Part) (lane : Byte) : Judged :=
  match s.laneArg lane with
  | none => s.refused .parameter
  | some k => ((s.cancelWork k).touch (.lane k)).accepted 0

/-- UNLOAD (R105). -/
def Part.unloadDirective (s : Part) (lane : Byte) : Judged :=
  match s.laneArg lane with
  | none => s.refused .parameter
  | some k => if (s.lane k).state = .idle then (s.startUnload k).accepted 0 else s.refused .state

/-! ## Magazine (R136 to R138, R148, R149) -/

/-- INVENTORY (R148). -/
def Part.inventoryDirective (s : Part) (which : Byte) : Judged :=
  let n := which.toNat
  if n = 0 ∨ 3 < n then s.refused .parameter
  else if s.changer.state = .faulted then s.refused .state
  else if 4 ≤ s.changer.directives then s.refused .full
  else
    let left := if n % 2 = 1 then magazineSlots .left else []
    let right := if 2 ≤ n then magazineSlots .right else []
    (s.enqueue (.inventory (left ++ right ++ [bay .l0, bay .l1, mailSlot]))).accepted 0

/-- MOVE (R149). -/
def Part.moveDirective (s : Part) (source target : Byte) : Judged :=
  match locOf source.toNat, locOf target.toNat with
  | some a, some b =>
    if s.moveParameter a b then s.refused .parameter
    else if s.changer.state = .faulted ∨ s.moveState a b = true then s.refused .state
    else if 4 ≤ s.changer.directives then s.refused .full
    else (s.enqueue (.move a b)).accepted 0
  | _, _ => s.refused .parameter

/-- SET HOLD (R136). -/
def Part.setHold (s : Part) (label : Label) (on : Byte) : Judged :=
  let holds := s.library.holds
  let put := fun (h : List Label) => { s with library := { s.library with holds := h } }
  if !(labelBytes label).all printable || 1 < on.toNat then s.refused .parameter
  else if on = 1 then
    if holds.contains label then s.accepted 0
    else if 32 ≤ holds.length then s.refused .full
    else Part.accepted (put (holds ++ [label])) 0
  else if holds.contains label then Part.accepted (put (holds.filter (· ≠ label))) 0
  else s.refused .notFound

/-- CLEAR HOLDS (R137). -/
def Part.clearHolds (s : Part) : Judged :=
  Part.accepted { s with library := { s.library with holds := [] } } s.library.holds.length

/-- Whether a label's span entry shows OPEN. -/
def Part.spanOpen (s : Part) (l : Label) : Bool :=
  match s.findSpan l with
  | some e => e.mirror == .opened
  | none => false

/-- RETIRE (R138). -/
def Part.retire (s : Part) (label : Label) : Judged :=
  if !validLabel label then s.refused .parameter
  else
    match s.findLabel label with
    | none => s.refused .notFound
    | some p =>
      let busy := match bayLane p with
        | some k => !(s.lane k).resting
        | none => false
      if s.library.holds.contains label || (s.loc p).state == some .opened || s.spanOpen label || busy then s.refused .state
      else
        let n := if (s.findSpan label).isSome then 1 else 0
        ((s.dropSpan label).setLoc p { s.loc p with state := some .scratch, verified := false }).accepted n

/-! ## Reading back (R153, R154, R164, R168) -/

/-- The candidates of a restore in the Span Table (R154). -/
def Part.restoreCandidates (s : Part) (set : Nat) (i : Fin 8) (first last : Nat) : List (SpanEntry × StreamRange) :=
  s.span.filterMap (fun e =>
    if e.set = set then
      match e.ranges.find? (fun r => r.stream == i) with
      | some r => if r.first.record ≤ last ∧ first ≤ r.last.record then some (e, r) else none
      | none => none
    else none)

/-- A volume record copied from a span entry (R152). -/
def volRecord (e : SpanEntry) (r : StreamRange) : VolRecord :=
  { label := e.label, number := e.number, firstBlock := r.firstBlock, lastBlock := r.lastBlock, first := r.first,
    last := r.last, continuation := r.continuation, runs := e.runs }

/-- A volume record put in its place by volume number; one of the same number is replaced (R154). -/
def insertVolume (v : VolRecord) : List VolRecord → List VolRecord
  | [] => [v]
  | w :: ws =>
    if v.number < w.number then v :: w :: ws
    else if v.number = w.number then v :: ws
    else w :: insertVolume v ws

/-- Whether the twin copy is chosen (R154). -/
def Part.chooseTwin (s : Part) (pref : Nat) (cs : List (SpanEntry × StreamRange)) : Bool :=
  let present := fun (twin : Bool) => (cs.filter (fun c => c.1.twin == twin)).all (fun c => (s.findLabel c.1.label).isSome)
  match pref with
  | 0 => false
  | 1 => true
  | _ => !present false && present true

/-- The checks of a destination that name PARAMETER (R153). -/
def badRegion (base size : Nat) : Bool := base % 8 != 0 || size == 0 || decide (2 ^ 32 < base + size)

/-- Whether a destination shares an address with what no restore may write (R153, step 4). -/
def Part.destOverlaps (s : Part) (base size : Nat) : Bool :=
  sharesAny base size (s.areaRange :: s.windowRanges none ++ s.poolRange)

/-- RESTORE (R153, R154, R174). -/
def Part.restoreDirective (s : Part) (lane stream : Byte) (set pref first last base size : Nat) : Judged :=
  match s.laneArg lane, streamArg stream with
  | some k, some i =>
    if set = 0 ∨ last < first ∨ 2 < pref ∨ badRegion base size = true then s.refused .parameter
    else if (s.lane k).restore.isSome then s.refused .busy
    else if (s.lane k).run.isOpen || !((s.lane k).resting || ((s.lane k).state == .reading && (s.verifying k).isSome)) then
      s.refused .state
    else if s.destOverlaps base size then s.refused .overlap
    else
      let cs := s.restoreCandidates set i first last
      let twin := s.chooseTwin pref cs
      let cs := cs.filter (fun c => c.1.twin == twin)
      let vs := cs.foldl (fun vs c => insertVolume (volRecord c.1 c.2) vs) []
      match vs with
      | [] => s.refused .notFound
      | v :: rest =>
        let lo := rest.foldl (fun n v => min n v.first.record) v.first.record
        let hi := rest.foldl (fun n v => max n v.last.record) v.last.record
        let job : RestoreJob :=
          { id := (s.lane k).nextServing, set := set, stream := i, reqFirst := first, reqLast := last, pref := pref, twinCopy := twin
            effFirst := max first lo, effLast := min last hi, volumes := vs, current := 0, phase := .waitingVerify
            expected := v.firstBlock, gap := false, cursor := max first lo, openPrefix := none, destBase := base
            destSize := size, pointer := base, done := 0, failed := 0, firstFailed := none, written := 0, damaged := 0
            lost := 0, early := false, result := .none }
        let waits := (s.lane k).state == .reading
        let s := s.modLane k (fun l => { l with restore := some job, nextServing := l.nextServing + 1 })
        let s :=
          if waits then
            if (s.lane k).pending.isSome then (s.dropPending k).modAccess k (fun a => { a with chunk := none }) else s
          else (s.modRestore k (fun j => { j with phase := .fetching })).startRestore k
        s.accepted vs.length
  | _, _ => s.refused .parameter

/-- RESTORE CONTINUE (R164). -/
def Part.restoreContinue (s : Part) (lane : Byte) (base size : Nat) : Judged :=
  match s.laneArg lane with
  | none => s.refused .parameter
  | some k =>
    if badRegion base size then s.refused .parameter
    else
      match (s.lane k).restore with
      | none => s.refused .state
      | some j =>
        if j.phase ≠ .waitingDest then s.refused .state
        else if s.destOverlaps base size then s.refused .overlap
        else
          let t := s.timer (60 * Config.second)
          let restart := fun (o : Outstanding) => { o with timer := some t }
          ((s.modRestore k (fun j => { j with phase := .reading, destBase := base, destSize := size, pointer := base })).modLane k
            (fun l => { l with outstanding := l.outstanding.map restart })).accepted 0

/-- VERIFY VOLUME (R168). -/
def Part.verifyDirective (s : Part) (lane : Byte) (label : Label) : Judged :=
  match s.laneArg lane with
  | none => s.refused .parameter
  | some k =>
    if !(labelBytes label).all printable then s.refused .parameter
    else if (s.lane k).verify.isSome then s.refused .busy
    else if (s.lane k).run.isOpen || !(s.lane k).resting then s.refused .state
    else
      match s.findSpan label with
      | none => s.refused .notFound
      | some e =>
        if e.mirror = .opened then s.refused .state
        else
          let job : VerifyJob :=
            { label := label, verified := e.verified, eovVerified := e.eovVerified, absentFrom := e.absentFrom, runs := e.runs
              phase := .fetching, expected := 0, gaps := Vector.replicate 8 false, kept := [], accepted := 0, damaged := 0
              lost := 0, skipped := 0, done := 0, failed := 0, partials := 0, chunks := 0, firstFailure := none
              result := .none }
          let s := s.modLane k (fun l => { l with verify := some job, access := Access.none })
          (s.fetchVerify k).accepted (e.verified / 64 + 1)

/-! ## Span Table (R125, R127, R128) -/

/-- The stage of a BUSY slot set. -/
def Part.setStage (s : Part) (st : Stage) : Part :=
  match s.unit.slot with
  | .busy c lost _ => { s with unit := { s.unit with slot := .busy c lost st } }
  | _ => s

/-- EXPORT SPAN (R125): the image is written, and the outcome follows its last write. -/
def Part.exportSpan (s : Part) (addr : Nat) : Judged :=
  let n := s.span.length
  let size := 64 + 512 * n
  if addr % 64 ≠ 0 ∨ 2 ^ 32 < addr + size then s.refused .parameter
  else if sharesAny addr size (s.areaRange :: s.windowRanges none ++ s.poolRange) then s.refused .overlap
  else ((s.setStage (.exporting n)).pushWrites (fun last => .spanWrite last) addr (spanImage s.span), none)

/-- A run open or a read job on either lane. -/
def Part.anyWork (s : Part) : Bool :=
  [LaneId.l0, .l1].any (fun k => (s.lane k).run.isOpen || (s.lane k).restore.isSome || (s.lane k).verify.isSome)

/-- IMPORT SPAN (R127), up to its first read. -/
def Part.importSpan (s : Part) (addr : Nat) : Judged :=
  if addr % 64 ≠ 0 ∨ 2 ^ 32 < addr + 64 then s.refused .parameter
  else if s.anyWork then s.refused .state
  else ((s.setStage (.importing addr [])).pushOwn [readBurst (.spanRead true) addr 8], none)

/-- A held label with an entry in the present table and none among the image's labels (R127, step 3). -/
def Part.holdMissing (s : Part) (labels : List Label) : Bool :=
  s.library.holds.any (fun l => (s.findSpan l).isSome && !labels.contains l)

/-- The image is whole: it is judged and becomes the table (R127). -/
def Part.importImage (s : Part) (n : Nat) (image : List Byte) : Judged :=
  if s.holdMissing ((imageEntries n image).map (fun b => labelAt b 0)) then s.refused .state
  else
    match readImage n image with
    | none => s.refused .parameter
    | some es =>
      let es := es.map (fun e => if e.mirror = .opened then { e with mirror := .interrupted } else e)
      let s := { s with span := es }
      let mark := fun (s : Part) (p : Loc) =>
        match (s.loc p).label.bind s.findSpan with
        | some e => s.setLoc p { s.loc p with state := some e.mirror }
        | none => s
      (locs.foldl mark s).accepted n

/-- The next part of an image has been read (R127): its header gives the further reads, the last read the judgement. -/
def Part.importRead (s : Part) (addr : Nat) (image : List Byte) (last : Bool) : Judged :=
  let n := (byteAt image 4).toNat
  if !last then (s.setStage (.importing addr image), none)
  else if image.take 4 ≠ markerImage ∨ 32 < n ∨ 2 ^ 32 < addr + 64 + 512 * n then s.refused .parameter
  else if image.length = 64 ∧ n ≠ 0 then
    let total := 4 * n + (if addr % 128 = 0 then 1 else 0)
    let starts := (List.range total).map (fun i =>
      let a := if addr % 128 = 0 then (if i = 0 then addr + 64 else addr + 128 * i) else addr + 64 + 128 * i
      let stop := min (a + 128 - a % 128) (addr + 64 + 512 * n)
      (a, (stop - a) / 8))
    let reads := starts.zipIdx.map (fun x => readBurst (.spanRead (x.2 + 1 == total)) x.1.1 x.1.2)
    ((s.setStage (.importing addr image)).pushOwn reads, none)
  else s.importImage n image

/-- FORGET VOLUME (R128). -/
def Part.forgetVolume (s : Part) (label : Label) : Judged :=
  match s.findSpan label with
  | none => s.refused .notFound
  | some e =>
    let jobs := [LaneId.l0, .l1].any (fun k => (s.lane k).restore.isSome || (s.lane k).verify.isSome)
    if s.library.holds.contains label || e.mirror == .opened || jobs then s.refused .state
    else
      let s := s.dropSpan label
      let mark := fun (s : Part) (p : Loc) =>
        if (s.loc p).label = some label then s.setLoc p { s.loc p with state := some .foreign, verified := false } else s
      (locs.foldl mark s).accepted 0

/-! ## CLEAR ERRORS (R108, R122, R186) -/

/-- A lane's run is taken up when its FAULT is cleared (R122). It makes its choice before a lane in WAITING MEDIA that chooses
again because a cartridge has returned to SCRATCH (DESIGN CHOICE, log entry 4). -/
def Part.takeUp (s : Part) (k : LaneId) : Part :=
  (((s.returnChosen k).leaveVolume k).carry k).nextVolume k

/-- A lane in FAULT is cleared (R108). -/
def Part.clearLane (s : Part) (k : LaneId) : Part :=
  if (s.lane k).state = .fault then
    let s := (s.modLane k (fun l => { l with code := .none, cut := none })).rest k
    if (s.lane k).run.isOpen then s.takeUp k else s
  else s

/-- CLEAR ERRORS (R186). -/
def Part.clearErrors (s : Part) (target : Byte) : Judged :=
  let inFault := fun (k : LaneId) => if (s.lane k).state = .fault then 1 else 0
  let changer := if s.changer.state = .faulted then 1 else 0
  match target.toNat with
  | 0 => (s.clearLane .l0).accepted (inFault .l0)
  | 1 => if s.pins.lnc then (s.clearLane .l1).accepted (inFault .l1) else s.refused .parameter
  | 2 => s.clearChanger.accepted changer
  | 3 => ((s.clearChanger.clearLane .l0).clearLane .l1).accepted (changer + inFault .l0 + inFault .l1)
  | _ => s.refused .parameter

end Sys2Proof.Machine
end

