-- ==== Sys2Proof/Machine/Slot.lean ====
section
/-! DEFINITION. The directive slot: directive writes taken, parameters read, outcomes written, LOST; RESET PART (R28, R39, R59, R69, R109, R129, R150, R178 to R181, R187). -/

namespace Sys2Proof.Machine

/-- The slot takes a state. -/
def Part.setDirSlot (s : Part) (x : DirSlot) : Part := { s with unit := { s.unit with slot := x } }

/-- The Outcome Word write (R181). -/
def Part.writeOutcome (s : Part) (second : Bool) : Part :=
  s.pushWrites (fun _ => .outcome second) (s.areaBase + 0x80) (outcomeBytes s.unit.outcome)

/-- The outcome is composed and its write issued (R180, R181). A detail above 16 bits, as a verify of an imported entry may
have, keeps its low 16 bits (DESIGN CHOICE, log entry 36). -/
def Part.compose (s : Part) (r : Result) (detail : Nat) : Part :=
  match s.unit.slot with
  | .busy c lost _ =>
    let o : Outcome := { code := c, result := r, lost := lost, detail := detail % 65536, count := (s.unit.outcome.count + 1) % 65536 }
    ({ s with unit := { s.unit with slot := .busy c lost .outcome, outcome := o } }).writeOutcome false
  | _ => s

/-- The slot enters BUSY to write an outcome without a directive (R178, R179). -/
def Part.answerOnly (s : Part) (code : Nat) (r : Result) (detail : Nat) : Part :=
  (s.setDirSlot (.busy code false .outcome)).compose r detail

/-! ## RESET PART (R187) -/

/-- A lane after RESET PART (R85, R109). -/
def Lane.afterReset (l : Lane) (present occupied : Bool) : Lane :=
  { Lane.blank with state := if present && occupied then .idle else .empty, nextServing := l.nextServing }

/-- The changer after RESET PART, before a QUERY it may send (R150). A frame partly received stays in the receiver (DESIGN
CHOICE, log entry 29). -/
def Changer.afterReset (c : Changer) : Changer :=
  let keep := fun (e : Entry) => match c.out with
    | some o => o.entry == some e.id
    | none => false
  let cut := fun (e : Entry) => { e with cut := true, job := match e.job with
    | .inventory _ => .inventory []
    | j => j }
  { c with
    queue := (c.queue.filter keep).map cut
    out := c.out.map (fun o => { o with afterReset := true })
    discards := 0, strays := 0, lastFailure := none }

/-- What RESET PART does to each block but the bus (R59, R69, R109, R129, R150, R187). An OPEN that an UNKNOWN record only
remembers becomes INTERRUPTED like one of an OCCUPIED record (DESIGN CHOICE, log entry 46). -/
def Part.resetBlocks (s : Part) : Part :=
  let interrupted := fun (r : LocRecord) => if r.state = some .opened then { r with state := some .interrupted } else r
  let entry := fun (e : SpanEntry) => if e.mirror = .opened then { e with mirror := .interrupted } else e
  let lane := fun (k : LaneId) => (s.lane k).afterReset (s.present k) ((s.loc (bay k)).occ == .occupied)
  { s with
    path := Path.blank
    force := InForce.blank
    streams := Vector.replicate 8 Stream.blank
    pool := { Pool.unset with nextBlk := s.pool.nextBlk }
    assembly := ⟨Assembly.blank, Assembly.blank⟩
    lanes := ⟨lane .l0, lane .l1⟩
    twin := { on := false, primary := .l0 }
    span := s.span.map entry
    library := { s.library with records := s.library.records.map interrupted }
    changer := s.changer.afterReset
    unit := { s.unit with latched := 0, mask := 0, pulseMode := s.pins.atm, attn := .released }
    status := s.status.map (fun t => { t with unanswered := false, stale := false }) }

/-- What RESET PART does to the memory path (R39): own accesses leave the line, the one on the port has its answer
discarded, held transactions are answered by their owners, and the refusal record is empty after that (R33). -/
def Part.resetBus (s : Part) : Part :=
  let port := match s.bus.port with
    | some (.own a _) => some (.own a true)
    | p => p
  let s := { s with bus := { s.bus with ownLine := [], port := port, lastServed := .client } }
  let s := s.bus.waiting.foldl (fun s x => match x.wait with
    | .intake i _ _ => s.refuse x.id .noRecord (.intake i)
    | .send k _ _ => s.refuse x.id .sequence (.send k)
    | _ => s) s
  { s.releaseParameters with path := Path.blank }

/-- RESET PART (R187): every block reset, its outcome the first own access, then every Status Block section. -/
def Part.resetPart (s : Part) : Part :=
  let s := s.resetBlocks.resetBus
  let s := s.setDirSlot (.busy 0x7F false .outcome)
  let s := { s with unit := { s.unit with outcome := { s.unit.outcome with count := 0 } } }
  let s := s.compose .accepted 0
  let s := if s.changer.out.isNone then
      ({ s with changer := { s.changer with state := .offline } }).send .query none
    else s
  { s with touched := allSections }

/-! ## Directive writes taken (R178, R179, R180) -/

/-- The slot is BUSY with a directive of the table, and its read of the Parameter Block joins the own line (R180). A Parameter
Block write that waits on the client line by then stays there; but for those made in PENDING (`Part.confirmed`), the arbiter may
carry it on either side of the read (R28, R37; DESIGN CHOICE, log entry 38). -/
def Part.readBlock (s : Part) (code : Nat) (lost : Bool) : Part :=
  (s.setDirSlot (.busy code lost .parameter)).pushOwn [readBurst .parameter (s.areaBase + 0x40) 8]

/-- The confirm of a guarded directive is taken (R179). RESET PART reads no parameters (R187). Parameter Block writes made in
PENDING reach memory before the parameter read: while one of them is unanswered, the read is not yet made (DESIGN CHOICE, log
entry 55). -/
def Part.confirmed (s : Part) (code : Nat) : Part :=
  if code = 0x7F then s.resetPart
  else if s.writesUnanswered then s.setDirSlot (.busy code false .writes)
  else s.readBlock code false

/-- The parameter read that let writes made in PENDING go first is made once memory has answered them all (R179). -/
def Part.writesAnswered (s : Part) : Part :=
  match s.unit.slot with
  | .busy c lost .writes => if s.writesUnanswered then s else s.readBlock c lost
  | _ => s

/-- The slot enters PENDING with a guarded code (R178). -/
def Part.enterPending (s : Part) (code : Nat) : Part :=
  { s with unit := { s.unit with slot := .pending code, pendingFrom := s.bus.nextId } }

/-- A directive write is lost while the slot is BUSY: the LOST flag is set once, and a second outcome write follows when it is
set after the first was issued (R180). The directive section is rewritten in that case, in which what it shows changes, and
not for a LOST flag set before the outcome is composed (R178; DESIGN CHOICE, log entry 44). -/
def Part.loseDirective (s : Part) : Part :=
  match s.unit.slot with
  | .busy c lost st =>
    let s := s.latch .directiveLost
    match st, lost with
    | .outcome, false =>
      (({ s with unit := { s.unit with
          slot := .busy c true .second, outcome := { s.unit.outcome with lost := true } } }).writeOutcome true).touch .unit
    | st, _ => s.setDirSlot (.busy c true st)
  | _ => s

/-- A directive write of a code is taken (R178, R179, R180). -/
def Part.takeDirective (s : Part) (code : Nat) : Part :=
  match s.unit.slot with
  | .ready =>
    if code = 0 then s
    else if code = 0xC9 then s.answerOnly code .sequence 0
    else if guardedTable.contains code then s.enterPending code
    else if directiveTable.contains code then s.readBlock code false
    else s.answerOnly code .unknownCode 0
  | .pending p => if code = 0xC9 then s.confirmed p else s.answerOnly p .sequence code
  | .busy .. => s.loseDirective

/-! ## Directives carried out -/

/-- A directive judged: its effects settled, then its outcome composed when it has one yet (R180). -/
def Part.conclude (old : Part) (again : Bool) (j : Judged) : Part :=
  let s := settle old j.1 again
  match j.2 with
  | some (r, d) => s.compose r d
  | none => s

/-- RESET PART given as a command: its write and its confirm in one event (R179, R187). -/
def Part.resetCommand (s : Part) : Part :=
  match s.unit.slot with
  | .ready => s.resetPart
  | .pending p => if p = 0x7F then s.resetPart else s.answerOnly p .sequence 0x7F
  | .busy .. => s.loseDirective

/-- Whether an accepted directive is one at which lanes in WAITING MEDIA choose again: a label left the Hold List, or
RETIRE was taken (R114, R136 to R138). -/
def chooseAgain (old : Part) (j : Judged) (retired : Bool) : Bool :=
  decide (j.1.library.holds.length < old.library.holds.length)
    || (retired && (match j.2 with
      | some (.accepted, _) => true
      | _ => false))

/-- A directive given as a command: the writes that take it, its confirm and its parameter read in one event. In BUSY it
is lost, and behind another pending code it gives SEQUENCE (R178 to R180). -/
def Part.directive (s : Part) (code : Nat) (f : Part → Judged) : Part :=
  let go := fun (s : Part) =>
    let j := f (s.setDirSlot (.busy code false .outcome))
    Part.conclude s (chooseAgain s j (code == 0x54)) j
  match s.unit.slot with
  | .ready => go s
  | .pending p => if p = code then go s else s.answerOnly p .sequence code
  | .busy .. => s.loseDirective

/-- The directive of a BUSY slot is judged and carried out with its Parameter Block (R180, R190). -/
def Part.carryOut (s : Part) (code : Nat) (b : List Byte) : Part :=
  let go := fun (j : Judged) => Part.conclude s (chooseAgain s j (code == 0x54)) j
  match readParameters code b with
  | some (.setWindow r a n) => go (s.setWindow r a.toNat n.toNat)
  | some (.setTiming h i) => go (s.setTiming h.toNat i.toNat)
  | some (.setAttn m) => go (s.setAttn m)
  | some (.setPool a n) => go (s.setPool a.toNat n.toNat)
  | some (.openStream i k n) => go (s.openStream i k n.toNat)
  | some (.openRecord i n) => go (s.openRecord i n.toNat)
  | some (.endRecord i) => go (s.endRecord i)
  | some (.flushStream i) => go (s.flushStream i)
  | some (.closeStream i) => go (s.closeStream i)
  | some (.append k n set) => go (s.append k n set.toNat)
  | some (.closeVolume k) => go (s.closeVolume k)
  | some (.endRun k) => go (s.endRunDirective k)
  | some (.setTwin on p) => go (s.setTwin on p)
  | some (.holdLane k) => go (s.holdLane k)
  | some (.releaseLane k) => go (s.releaseLane k)
  | some (.cancelLane k) => go (s.cancelLane k)
  | some (.unload k) => go (s.unloadDirective k)
  | some (.inventory w) => go (s.inventoryDirective w)
  | some (.move a t) => go (s.moveDirective a t)
  | some (.setHold l on) => go (s.setHold l on)
  | some .clearHolds => go s.clearHolds
  | some (.retire l) => go (s.retire l)
  | some (.restore k i set p a z base size) =>
    go (s.restoreDirective k i set.toNat p.toNat a.toNat z.toNat base.toNat size.toNat)
  | some (.restoreContinue k base size) => go (s.restoreContinue k base.toNat size.toNat)
  | some (.verifyVolume k l) => go (s.verifyDirective k l)
  | some (.exportSpan a) => go (s.exportSpan a.toNat)
  | some (.importSpan a) => go (s.importSpan a.toNat)
  | some (.forgetVolume l) => go (s.forgetVolume l)
  | some (.clearErrors t) => go (s.clearErrors t)
  | _ => s.answerOnly code .unknownCode 0

/-! ## Answers to the Directive Unit's own accesses (R28, R38, R125, R127, R180, R185) -/

/-- The Parameter Block read is answered: held writes go on, the directive is judged (R28, R180). -/
def Part.parameterAnswered (s : Part) (ok : Bool) (data : List Byte) : Part :=
  match s.unit.slot with
  | .busy c lost .parameter =>
    let s := s.releaseParameters
    if ok then (s.setDirSlot (.busy c lost .outcome)).carryOut c (padTo 64 data) else s.compose .parameter 0
  | _ => s

/-- The Outcome Word write is answered: the settings come into force (R35, R36, R62), and the slot returns to READY, or waits
for the second write (R180). -/
def Part.outcomeAnswered (s : Part) (second : Bool) : Part :=
  match s.unit.slot with
  | .busy _ _ .outcome => (s.enforce.setDirSlot .ready).latch .directiveDone
  | .busy _ _ .second => if second then (s.enforce.setDirSlot .ready).latch .directiveDone else s.enforce
  | _ => s

/-- A write of a span image is answered (R38, R125). -/
def Part.spanWriteAnswered (s : Part) (ok last : Bool) : Part :=
  match s.unit.slot with
  | .busy _ _ (.exporting n) =>
    if ok then (if last then s.compose .accepted n else s)
    else (s.dropOwn (fun k => match k with
      | .spanWrite _ => true
      | _ => false)).compose .parameter 0
  | _ => s

/-- A read of a span image is answered (R38, R127). -/
def Part.spanReadAnswered (s : Part) (ok last : Bool) (beats : Nat) (data : List Byte) : Part :=
  match s.unit.slot with
  | .busy _ _ (.importing addr image) =>
    if ok then Part.conclude s false (s.importRead addr (image ++ padTo (8 * beats) data) last)
    else (s.dropOwn (fun k => match k with
      | .spanRead _ => true
      | _ => false)).compose .parameter 0
  | _ => s

/-- An access of an update of a section is answered: at its last, or at a FAULT, the update is over, and a stale section
is written again (R38, R185). -/
def Part.statusAnswered (s : Part) (x : Section) (ok last : Bool) : Part :=
  let finish := fun (s : Part) =>
    let t := s.sectionState x
    let s := s.setSection { t with unanswered := false, stale := false }
    if t.stale then s.touch x else s
  if ok then (if last then finish s else s)
  else finish (s.dropOwn (fun k => match k with
    | .status y _ => y == x
    | _ => false))

end Sys2Proof.Machine
end

