-- ==== Sys2Proof/Machine/Events.lean ====
section
/-! DEFINITION. The events whole: answers on the memory-side port, the walk, resets, and how an event becomes a step of the machine (R16, R24, R26, R38, R39, R183). -/

namespace Sys2Proof.Machine

/-! ## The memory-side port (R24, R26, R37, R38) -/

/-- The port becomes free. -/
def Part.freePort (s : Part) : Part := { s with bus := { s.bus with port := none } }

/-- What the Directive Unit takes of a client write that memory answered OKAY (R26): the mask bytes, the directive write. -/
def Part.snoop (s : Part) (t : Txn) : Part :=
  let (range, off) := s.rangeOf t.addr.toNat
  if range = .directive ∧ t.write = true then
    let at' := fun (o : Nat) => byteAt t.data (o - off)
    let mask := (List.range 8).foldl (fun (m : BitVec 64) i =>
      if t.enables off (0x108 + i) then
        (m &&& ~~~ (0xFF#64 <<< (8 * i))) ||| ((at' (0x108 + i)).setWidth 64 <<< (8 * i))
      else m) s.unit.mask
    let s := { s with unit := { s.unit with mask := mask } }
    if (List.range 8).all (fun i => t.enables off i) then s.takeDirective (at' 0).toNat else s
  else s

/-- Bytes that memory returned for a read at offset `off` of the directive area, as the part reads them: the Condition Mask bits
that have no condition are read as 0 (section 11.1). -/
def maskedBytes (off : Nat) (data : List Byte) : List Byte :=
  data.zipIdx.map (fun x =>
    let o := off + x.2
    if 0x108 ≤ o ∧ o < 0x110 then x.1 &&& byteAt (leBytes 8 conditionBits.toNat) (o - 0x108) else x.1)

/-- The beats a passed-through read returns for what memory answered (R24, section 11.1). -/
def Part.passedData (s : Part) (t : Txn) (data : List Byte) : List Byte :=
  let (range, off) := s.rangeOf t.addr.toNat
  let beats := padTo (8 * t.beats) data
  if range = .directive then maskedBytes off beats else beats

/-- Memory answers a passed-through transaction (R24, R26, R189). A parameter read that waited for it as the last Parameter Block
write made in PENDING is made (R179). -/
def Part.passedAnswer (s : Part) (ok : Bool) (data : List Byte) : Part :=
  match s.bus.port with
  | some (.client id t) =>
    let s := s.freePort
    (if ok then (s.okay id (if t.write then [] else s.passedData t data)).snoop t else s.memoryFault id).writesAnswered
  | _ => s

/-- Memory answers a write of restore output (R38, R163, R165). -/
def Part.outputAnswered (s : Part) (k : LaneId) (job : Nat) (ok : Bool) : Part :=
  if ok then s
  else
    let s := s.dropOwn (fun x => x == .restoreOut k job)
    match (s.lane k).restore with
    | some j => if j.id = job ∧ j.early = false then s.endEarly k .memory else s
    | none => s

/-- Memory answers the own access on the port, when `p` holds for it (R38). -/
def Part.ownAnswered (s : Part) (p : OwnKind → Bool) (ok : Bool) (data : List Byte) : Part :=
  match s.bus.port with
  | some (.own a discarded) =>
    if !p a.kind then s
    else if discarded then s.freePort
    else
      let old := s
      let s := s.freePort
      match a.kind with
      | .poolWrite k b blk => settle old (s.poolWriteAnswered k b blk ok) false
      | .poolRead k id => settle old (s.poolReadAnswered k id ok (padTo (8 * a.beats) data)) false
      | .restoreOut k job => settle old (s.outputAnswered k job ok) false
      | .outcome second => s.outcomeAnswered second
      | .zeroOutcome => s
      | .status x last => s.statusAnswered x ok last
      | .parameter => s.parameterAnswered ok data
      | .spanWrite last => s.spanWriteAnswered ok last
      | .spanRead last => s.spanReadAnswered ok last a.beats data
  | _ => s

/-! ## The walk (R16, R161, R171) -/

/-- The read job of lane `k` takes its block's next segment; a restore that waits for a destination is held (R16). -/
def Part.unpackSegment (s : Part) (k : LaneId) : Part :=
  match (s.lane k).access.walk, (s.lane k).buffer with
  | some w, some block =>
    match s.restoring k with
    | some j =>
      if j.phase ≠ .reading then s
      else
        let s := s.unpackRestore k j w block
        match s.restoring k with
        | some j => if j.satisfied then s.freeBuffer k else s
        | none => s
    | none => if (s.verifying k).isSome then s.unpackVerify k w block else s
  | _, _ => s

/-! ## Timers of the Directive Unit and the changer -/

/-- The 1 µs pulse ends (R183). -/
def Part.pulseEnd (s : Part) : Part :=
  match s.unit.attn with
  | .pulse t => if t + 1 ≤ s.now then { s with unit := { s.unit with attn := .released } } else s
  | _ => s

/-- A snooped mask write: the enabled bytes are taken (R183). -/
def Part.maskWrite (s : Part) (strobes : BitVec 8) (value : BitVec 64) : Part :=
  let mask := (List.range 8).foldl (fun (m : BitVec 64) i =>
    if strobes.getLsbD i then (m &&& ~~~ (0xFF#64 <<< (8 * i))) ||| (value &&& (0xFF#64 <<< (8 * i))) else m) s.unit.mask
  { s with unit := { s.unit with mask := mask } }

/-! ## Reset (R39) -/

/-- RESETN goes low (R39). -/
def Part.resetLow (s : Part) : Part :=
  { s with
    pins := { s.pins with resetLow := true }
    bus := { s.bus with waiting := [], clientLine := [], ownLine := [], port := none }
    unit := { s.unit with attn := .released }
    changer := { s.changer with out := none, receiver := .hunting } }

/-! ## Events as steps -/

/-- An event while RESETN is high, with all that ends an event; with RESETN low nothing comes about (R39). -/
def live (s : Part) (f : Part → Part) : Part := if s.pins.resetLow then s else report s (f s)

/-- The machine after an event of the part. -/
def event (s : State) (f : Part → Part) : Host.Outcome State Fault Refusal := .next { s with toPart := live s.toPart f }

/-- An event that reaches the lanes, which settle what it leaves (R86, R114, R118, R158). -/
def laneEvent (s : State) (f : Part → Part) : Host.Outcome State Fault Refusal :=
  event s (fun p => settle p (f p) false)

/-- A transaction given as one of a kind: it acts when its treatment is of that kind. -/
def kindEvent (s : State) (t : Txn) (p : Treatment → Bool) : Host.Outcome State Fault Refusal :=
  laneEvent s (fun x => if p (x.classify t) then x.clientTransaction t else x)

end Sys2Proof.Machine
end

