-- ==== Sys2Proof/Machine/ChangerCommands.lean ====
section
/-! DEFINITION. The meanings of the commands: the Magazine Map, the Hold List and the changer link. -/

namespace Sys2Proof.Machine

/-- INVENTORY (R148). -/
def execInventory (which : Byte) (s : State) : Host.Outcome State Fault Refusal :=
  event s (fun p => p.directive 0x50 (fun x => x.inventoryDirective which))

/-- MOVE (R149). -/
def execMove (source target : Byte) (s : State) : Host.Outcome State Fault Refusal :=
  event s (fun p => p.directive 0x51 (fun x => x.moveDirective source target))

/-- SET_HOLD (R136). -/
def execSetHold (label : Label) (on : Byte) (s : State) : Host.Outcome State Fault Refusal :=
  event s (fun p => p.directive 0x52 (fun x => x.setHold label on))

/-- CLEAR_HOLDS (R137). -/
def execClearHolds (s : State) : Host.Outcome State Fault Refusal :=
  event s (fun p => p.directive 0x53 (fun x => x.clearHolds))

/-- RETIRE (R138). -/
def execRetire (label : Label) (s : State) : Host.Outcome State Fault Refusal :=
  event s (fun p => p.directive 0x54 (fun x => x.retire label))

/-- CHANGER_COMMAND_START (R146 to R149). -/
def execChangerCommandStart (s : State) : Host.Outcome State Fault Refusal :=
  laneEvent s (fun p => p.commandStart)

/-- MOVE_ANSWER (R144). -/
def execMoveAnswer (result : Byte) (s : State) : Host.Outcome State Fault Refusal :=
  laneEvent s (fun p => p.takeFrame 0xA1 [result])

/-- SCAN_ANSWER (R132, R144). -/
def execScanAnswer (result : Byte) (label : Option Label) (s : State) : Host.Outcome State Fault Refusal :=
  laneEvent s (fun p => p.takeFrame 0xA2 (result :: (label.map labelBytes).getD []))

/-- QUERY_ANSWER (R143). -/
def execQueryAnswer (result : Byte) (stateByte : Option Byte) (s : State) : Host.Outcome State Fault Refusal :=
  laneEvent s (fun p => p.takeFrame 0xA3 (result :: stateByte.toList))

/-- ANSWER_TIMER (R143, R144). -/
def execAnswerTimer (s : State) : Host.Outcome State Fault Refusal :=
  laneEvent s (fun p => p.answerTimer)

/-- QUERY_RETRY (R143). -/
def execQueryRetry (s : State) : Host.Outcome State Fault Refusal :=
  event s (fun p => p.queryRetry)

/-- MAGAZINE_OPENED (R133). -/
def execMagazineOpened (which : Byte) (s : State) : Host.Outcome State Fault Refusal :=
  laneEvent s (fun p => p.takeFrame 0x40 [which])

/-- MAGAZINE_CLOSED (R134). -/
def execMagazineClosed (which : Byte) (s : State) : Host.Outcome State Fault Refusal :=
  laneEvent s (fun p => p.takeFrame 0x41 [which])

/-- MAIL_SLOT_LOADED (R135). -/
def execMailSlotLoaded (s : State) : Host.Outcome State Fault Refusal :=
  laneEvent s (fun p => p.takeFrame 0x42 [])

/-- MAIL_SLOT_EMPTIED (R135). -/
def execMailSlotEmptied (s : State) : Host.Outcome State Fault Refusal :=
  laneEvent s (fun p => p.takeFrame 0x43 [])

/-- MECHANISM_FAULT (R145). -/
def execMechanismFault (s : State) : Host.Outcome State Fault Refusal :=
  laneEvent s (fun p => p.takeFrame 0x44 [])

/-- STRAY (R141): a frame that passed the receiver, judged by its kind. -/
def execStray (kind : Byte) (params : List Byte) (s : State) : Host.Outcome State Fault Refusal :=
  laneEvent s (fun p => p.takeFrame kind.toNat params)

/-- FRAMING_DISCARD (R140): one byte arrives on CRX, an event of its own, as the length and the check that discard a frame and the
check that hands one on are (DESIGN CHOICE, log entry 18). -/
def execFramingDiscard (byte : Byte) (s : State) : Host.Outcome State Fault Refusal :=
  laneEvent s (fun p => p.receive byte)

/-- FRAME_GAP (R140). -/
def execFrameGap (s : State) : Host.Outcome State Fault Refusal :=
  event s (fun p => p.frameGap)

/-- COMMAND_FRAME_SENT (R139). -/
def execCommandFrameSent (s : State) : Host.Outcome State Fault Refusal :=
  event s (fun p => p.frameSent)

end Sys2Proof.Machine
end

