-- ==== Sys2Proof/Machine/LaneCommands.lean ====
section
/-! DEFINITION. The meanings of the commands: lane timers, runs and lanes. -/

namespace Sys2Proof.Machine

/-- PARTIAL_READ_TIMER (R93). -/
def execPartialReadTimer (lane : LaneId) (s : State) : Host.Outcome State Fault Refusal :=
  laneEvent s (fun p => p.partialReadTimer lane)

/-- ECHO_TIMER (R103). -/
def execEchoTimer (lane : LaneId) (s : State) : Host.Outcome State Fault Refusal :=
  laneEvent s (fun p => p.echoTimer lane)

/-- RETURN_TIMER (R92). -/
def execReturnTimer (lane : LaneId) (s : State) : Host.Outcome State Fault Refusal :=
  laneEvent s (fun p => p.returnTimer lane)

/-- APPEND (R113). -/
def execAppend (lane slot : Byte) (set : BitVec 16) (s : State) : Host.Outcome State Fault Refusal :=
  event s (fun p => p.directive 0x30 (fun x => x.append lane slot set.toNat))

/-- CLOSE_VOLUME (R117). -/
def execCloseVolume (lane : Byte) (s : State) : Host.Outcome State Fault Refusal :=
  event s (fun p => p.directive 0x31 (fun x => x.closeVolume lane))

/-- END_RUN (R120). -/
def execEndRun (lane : Byte) (s : State) : Host.Outcome State Fault Refusal :=
  event s (fun p => p.directive 0x32 (fun x => x.endRunDirective lane))

/-- SET_TWIN (R123). -/
def execSetTwin (on primary : Byte) (s : State) : Host.Outcome State Fault Refusal :=
  event s (fun p => p.directive 0x33 (fun x => x.setTwin on primary))

/-- HOLD_LANE (R104). -/
def execHoldLane (lane : Byte) (s : State) : Host.Outcome State Fault Refusal :=
  event s (fun p => p.directive 0x40 (fun x => x.holdLane lane))

/-- RELEASE_LANE (R104). -/
def execReleaseLane (lane : Byte) (s : State) : Host.Outcome State Fault Refusal :=
  event s (fun p => p.directive 0x41 (fun x => x.releaseLane lane))

/-- CANCEL_LANE (R106). -/
def execCancelLane (lane : Byte) (s : State) : Host.Outcome State Fault Refusal :=
  event s (fun p => p.directive 0x42 (fun x => x.cancelLane lane))

/-- UNLOAD (R105). -/
def execUnload (lane : Byte) (s : State) : Host.Outcome State Fault Refusal :=
  event s (fun p => p.directive 0x43 (fun x => x.unloadDirective lane))

end Sys2Proof.Machine
end

