-- ==== Sys2Proof/Machine/PathCommands.lean ====
section
/-! DEFINITION. The meanings of the commands: the memory path: resets, transactions, memory answers. -/

namespace Sys2Proof.Machine

/-- RESETN_LOW (R39). -/
def execResetnLow (s : State) : Host.Outcome State Fault Refusal :=
  .next { s with toPart := s.toPart.resetLow }

/-- RESETN_HIGH (R39, R40): it acts when RESETN was low. -/
def execResetnHigh (dab : BitVec 4) (atm lnc : Bool) (s : State) : Host.Outcome State Fault Refusal :=
  .next (if s.pins.resetLow then { s with toPart := s.toPart.resetHigh dab atm lnc } else s)

/-- CLIENT_TRANSACTION (R21 to R32). -/
def execClientTransaction (t : Txn) (s : State) : Host.Outcome State Fault Refusal :=
  laneEvent s (fun p => p.clientTransaction t)

/-- PASSED_THROUGH_ANSWER (R24, R26). -/
def execPassedThroughAnswer (ok : Bool) (data : List Byte) (s : State) : Host.Outcome State Fault Refusal :=
  laneEvent s (fun p => p.passedAnswer ok data)

/-- CONDITION_MASK_WRITE (R183). -/
def execConditionMaskWrite (strobes : BitVec 8) (value : BitVec 64) (s : State) : Host.Outcome State Fault Refusal :=
  event s (fun p => p.maskWrite strobes value)

/-- CONDITION_WORD_READ (R27). -/
def execConditionWordRead (t : Txn) (s : State) : Host.Outcome State Fault Refusal :=
  kindEvent s t (fun x => x == .cond)

/-- INTAKE_WRITE (R29, R30, R47, R48). -/
def execIntakeWrite (t : Txn) (s : State) : Host.Outcome State Fault Refusal :=
  kindEvent s t (fun x => match x with | .intake .. => true | _ => false)

/-- HOLD_TIMER (R30). -/
def execHoldTimer (n : Nat) (s : State) : Host.Outcome State Fault Refusal :=
  event s (fun p => p.holdTimer n)

/-- SEND_READ (R31, R87 to R92). -/
def execSendRead (t : Txn) (s : State) : Host.Outcome State Fault Refusal :=
  kindEvent s t (fun x => match x with | .send .. => true | _ => false)

/-- RETURN_WRITE (R32, R94 to R102). -/
def execReturnWrite (t : Txn) (s : State) : Host.Outcome State Fault Refusal :=
  kindEvent s t (fun x => match x with | .ret .. => true | _ => false)

/-- POOL_READ_ANSWERED (R90). -/
def execPoolReadAnswered (ok : Bool) (data : List Byte) (s : State) : Host.Outcome State Fault Refusal :=
  event s (fun p => p.ownAnswered (fun x => match x with | .poolRead .. => true | _ => false) ok data)

/-- OWN_ACCESS_ANSWERED (R38). -/
def execOwnAccessAnswered (ok : Bool) (data : List Byte) (s : State) : Host.Outcome State Fault Refusal :=
  event s (fun p => p.ownAnswered (fun _ => true) ok data)

/-- STATUS_UPDATE_ANSWERED (R185). -/
def execStatusUpdateAnswered (ok : Bool) (s : State) : Host.Outcome State Fault Refusal :=
  event s (fun p => p.ownAnswered (fun x => match x with | .status .. => true | _ => false) ok [])

/-- PARAMETER_READ_ANSWERED (R28, R180, R190). -/
def execParameterReadAnswered (ok : Bool) (data : List Byte) (s : State) : Host.Outcome State Fault Refusal :=
  event s (fun p => p.ownAnswered (fun x => x == .parameter) ok data)

/-- OUTCOME_WRITE_ANSWERED (R180). -/
def execOutcomeWriteAnswered (ok : Bool) (s : State) : Host.Outcome State Fault Refusal :=
  event s (fun p => p.ownAnswered (fun x => match x with | .outcome _ => true | _ => false) ok [])

/-- SET_WINDOW (R35). -/
def execSetWindow (role : Byte) (base size : BitVec 32) (s : State) : Host.Outcome State Fault Refusal :=
  event s (fun p => p.directive 0x01 (fun x => x.setWindow role base.toNat size.toNat))

/-- SET_TIMING (R36). -/
def execSetTiming (hold idle : BitVec 16) (s : State) : Host.Outcome State Fault Refusal :=
  event s (fun p => p.directive 0x02 (fun x => x.setTiming hold.toNat idle.toNat))

end Sys2Proof.Machine
end

