-- ==== Sys2Proof/Machine/ReadCommands.lean ====
section
/-! DEFINITION. The meanings of the commands: restore, verify and the Span Table. -/

namespace Sys2Proof.Machine

/-- RESTORE (R153). -/
def execRestore (lane stream : Byte) (set : BitVec 16) (pref : Byte) (first last base size : BitVec 32) (s : State) : Host.Outcome State Fault Refusal :=
  event s (fun p => p.directive 0x60 (fun x =>
    x.restoreDirective lane stream set.toNat pref.toNat first.toNat last.toNat base.toNat size.toNat))

/-- RESTORE_CONTINUE (R164). -/
def execRestoreContinue (lane : Byte) (base size : BitVec 32) (s : State) : Host.Outcome State Fault Refusal :=
  event s (fun p => p.directive 0x61 (fun x => x.restoreContinue lane base.toNat size.toNat))

/-- VERIFY_VOLUME (R168). -/
def execVerifyVolume (lane : Byte) (label : Label) (s : State) : Host.Outcome State Fault Refusal :=
  event s (fun p => p.directive 0x62 (fun x => x.verifyDirective lane label))

/-- EXPORT_SPAN (R125). -/
def execExportSpan (addr : BitVec 32) (s : State) : Host.Outcome State Fault Refusal :=
  event s (fun p => p.directive 0x70 (fun x => x.exportSpan addr.toNat))

/-- IMPORT_SPAN (R127). -/
def execImportSpan (addr : BitVec 32) (s : State) : Host.Outcome State Fault Refusal :=
  event s (fun p => p.directive 0x71 (fun x => x.importSpan addr.toNat))

/-- FORGET_VOLUME (R128). -/
def execForgetVolume (label : Label) (s : State) : Host.Outcome State Fault Refusal :=
  event s (fun p => p.directive 0x72 (fun x => x.forgetVolume label))

/-- UNPACK_SEGMENT (R16, R161, R171). -/
def execUnpackSegment (lane : LaneId) (s : State) : Host.Outcome State Fault Refusal :=
  laneEvent s (fun p => p.unpackSegment lane)

end Sys2Proof.Machine
end

