-- ==== Sys2Proof/Machine/StreamCommands.lean ====
section
/-! DEFINITION. The meanings of the commands: streams, the encoder, the block pool and its assembly. -/

namespace Sys2Proof.Machine

/-- ENCODER_TAKE_BYTE (R7, R49). -/
def execEncoderTakeByte (stream : Fin 8) (s : State) : Host.Outcome State Fault Refusal :=
  event s (fun p => p.encoderTakeByte stream)

/-- ENCODER_DECISION (R7 to R11). -/
def execEncoderDecision (stream : Fin 8) (s : State) : Host.Outcome State Fault Refusal :=
  event s (fun p => p.encoderDecision stream)

/-- IDLE_TIMER (R54). -/
def execIdleTimer (stream : Fin 8) (s : State) : Host.Outcome State Fault Refusal :=
  event s (fun p => p.idleTimer stream)

/-- SEGMENT_APPEND (R71 to R78). -/
def execSegmentAppend (lane : LaneId) (s : State) : Host.Outcome State Fault Refusal :=
  laneEvent s (fun p => p.workHead lane)

/-- BLOCK_IDLE_TIMER (R77). -/
def execBlockIdleTimer (lane : LaneId) (s : State) : Host.Outcome State Fault Refusal :=
  laneEvent s (fun p => p.blockIdleTimer lane)

/-- SET_POOL (R62). -/
def execSetPool (base : BitVec 32) (count : Byte) (s : State) : Host.Outcome State Fault Refusal :=
  event s (fun p => p.directive 0x10 (fun x => x.setPool base.toNat count.toNat))

/-- OPEN_STREAM (R42). -/
def execOpenStream (stream lane : Byte) (first : BitVec 32) (s : State) : Host.Outcome State Fault Refusal :=
  event s (fun p => p.directive 0x20 (fun x => x.openStream stream lane first.toNat))

/-- OPEN_RECORD (R43). -/
def execOpenRecord (stream : Byte) (length : BitVec 64) (s : State) : Host.Outcome State Fault Refusal :=
  event s (fun p => p.directive 0x21 (fun x => x.openRecord stream length.toNat))

/-- END_RECORD (R44). -/
def execEndRecord (stream : Byte) (s : State) : Host.Outcome State Fault Refusal :=
  event s (fun p => p.directive 0x22 (fun x => x.endRecord stream))

/-- FLUSH_STREAM (R45). -/
def execFlushStream (stream : Byte) (s : State) : Host.Outcome State Fault Refusal :=
  event s (fun p => p.directive 0x23 (fun x => x.flushStream stream))

/-- CLOSE_STREAM (R46). -/
def execCloseStream (stream : Byte) (s : State) : Host.Outcome State Fault Refusal :=
  event s (fun p => p.directive 0x24 (fun x => x.closeStream stream))

end Sys2Proof.Machine
end

