-- ==== Sys2Proof/Machine/UnitCommands.lean ====
section
/-! DEFINITION. The meanings of the commands: the Directive Unit: the slot, ATTN, CLEAR ERRORS, RESET PART. -/

namespace Sys2Proof.Machine

/-- DIRECTIVE_LOST (R180): a directive write of `code`, which a BUSY slot loses. -/
def execDirectiveLost (code : Byte) (s : State) : Host.Outcome State Fault Refusal :=
  event s (fun p => p.takeDirective code.toNat)

/-- EMPTY_CODE (R178, R179). -/
def execEmptyCode (s : State) : Host.Outcome State Fault Refusal :=
  event s (fun p => p.takeDirective 0x00)

/-- CONFIRM (R178, R179). -/
def execConfirm (s : State) : Host.Outcome State Fault Refusal :=
  event s (fun p => p.takeDirective 0xC9)

/-- UNKNOWN_CODE (R178): a directive write of `code`. -/
def execUnknownCode (code : Byte) (s : State) : Host.Outcome State Fault Refusal :=
  event s (fun p => p.takeDirective code.toNat)

/-- SET_ATTN (R184). -/
def execSetAttn (mode : Byte) (s : State) : Host.Outcome State Fault Refusal :=
  event s (fun p => p.directive 0x03 (fun x => x.setAttn mode))

/-- CLEAR_ERRORS (R186). -/
def execClearErrors (target : Byte) (s : State) : Host.Outcome State Fault Refusal :=
  event s (fun p => p.directive 0x78 (fun x => x.clearErrors target))

/-- RESET_PART (R187), with its confirm. -/
def execResetPart (s : State) : Host.Outcome State Fault Refusal :=
  event s (fun p => p.resetCommand)

/-- ATTN_PULSE_END (R183). -/
def execAttnPulseEnd (s : State) : Host.Outcome State Fault Refusal :=
  event s (fun p => p.pulseEnd)

end Sys2Proof.Machine
end

