-- ==== Sys2Proof/Machine/Dispatch.lean ====
section
/-! DEFINITION. Each command is its meaning: one arm per constructor. -/

namespace Sys2Proof.Machine

/-- The effect of a command on everything but the queue. -/
def exec (i : Instr) (s : State) : Host.Outcome State Fault Refusal :=
  match i with
  | .resetnLow => Sys2Proof.Machine.execResetnLow s
  | .resetnHigh dab atm lnc => Sys2Proof.Machine.execResetnHigh dab atm lnc s
  | .clientTransaction t => Sys2Proof.Machine.execClientTransaction t s
  | .passedThroughAnswer ok data => Sys2Proof.Machine.execPassedThroughAnswer ok data s
  | .conditionMaskWrite strobes value => Sys2Proof.Machine.execConditionMaskWrite strobes value s
  | .conditionWordRead t => Sys2Proof.Machine.execConditionWordRead t s
  | .intakeWrite t => Sys2Proof.Machine.execIntakeWrite t s
  | .holdTimer n => Sys2Proof.Machine.execHoldTimer n s
  | .encoderTakeByte stream => Sys2Proof.Machine.execEncoderTakeByte stream s
  | .encoderDecision stream => Sys2Proof.Machine.execEncoderDecision stream s
  | .idleTimer stream => Sys2Proof.Machine.execIdleTimer stream s
  | .segmentAppend lane => Sys2Proof.Machine.execSegmentAppend lane s
  | .blockIdleTimer lane => Sys2Proof.Machine.execBlockIdleTimer lane s
  | .sendRead t => Sys2Proof.Machine.execSendRead t s
  | .poolReadAnswered ok data => Sys2Proof.Machine.execPoolReadAnswered ok data s
  | .partialReadTimer lane => Sys2Proof.Machine.execPartialReadTimer lane s
  | .returnWrite t => Sys2Proof.Machine.execReturnWrite t s
  | .echoTimer lane => Sys2Proof.Machine.execEchoTimer lane s
  | .returnTimer lane => Sys2Proof.Machine.execReturnTimer lane s
  | .ownAccessAnswered ok data => Sys2Proof.Machine.execOwnAccessAnswered ok data s
  | .statusUpdateAnswered ok => Sys2Proof.Machine.execStatusUpdateAnswered ok s
  | .parameterReadAnswered ok data => Sys2Proof.Machine.execParameterReadAnswered ok data s
  | .outcomeWriteAnswered ok => Sys2Proof.Machine.execOutcomeWriteAnswered ok s
  | .directiveLost code => Sys2Proof.Machine.execDirectiveLost code s
  | .emptyCode => Sys2Proof.Machine.execEmptyCode s
  | .confirm => Sys2Proof.Machine.execConfirm s
  | .unknownCode code => Sys2Proof.Machine.execUnknownCode code s
  | .setWindow role base size => Sys2Proof.Machine.execSetWindow role base size s
  | .setTiming hold idle => Sys2Proof.Machine.execSetTiming hold idle s
  | .setAttn mode => Sys2Proof.Machine.execSetAttn mode s
  | .setPool base count => Sys2Proof.Machine.execSetPool base count s
  | .openStream stream lane first => Sys2Proof.Machine.execOpenStream stream lane first s
  | .openRecord stream length => Sys2Proof.Machine.execOpenRecord stream length s
  | .endRecord stream => Sys2Proof.Machine.execEndRecord stream s
  | .flushStream stream => Sys2Proof.Machine.execFlushStream stream s
  | .closeStream stream => Sys2Proof.Machine.execCloseStream stream s
  | .append lane slot set => Sys2Proof.Machine.execAppend lane slot set s
  | .closeVolume lane => Sys2Proof.Machine.execCloseVolume lane s
  | .endRun lane => Sys2Proof.Machine.execEndRun lane s
  | .setTwin on primary => Sys2Proof.Machine.execSetTwin on primary s
  | .holdLane lane => Sys2Proof.Machine.execHoldLane lane s
  | .releaseLane lane => Sys2Proof.Machine.execReleaseLane lane s
  | .cancelLane lane => Sys2Proof.Machine.execCancelLane lane s
  | .unload lane => Sys2Proof.Machine.execUnload lane s
  | .inventory which => Sys2Proof.Machine.execInventory which s
  | .move source target => Sys2Proof.Machine.execMove source target s
  | .setHold label on => Sys2Proof.Machine.execSetHold label on s
  | .clearHolds => Sys2Proof.Machine.execClearHolds s
  | .retire label => Sys2Proof.Machine.execRetire label s
  | .restore lane stream set pref first last base size => Sys2Proof.Machine.execRestore lane stream set pref first last base size s
  | .restoreContinue lane base size => Sys2Proof.Machine.execRestoreContinue lane base size s
  | .verifyVolume lane label => Sys2Proof.Machine.execVerifyVolume lane label s
  | .exportSpan addr => Sys2Proof.Machine.execExportSpan addr s
  | .importSpan addr => Sys2Proof.Machine.execImportSpan addr s
  | .forgetVolume label => Sys2Proof.Machine.execForgetVolume label s
  | .clearErrors target => Sys2Proof.Machine.execClearErrors target s
  | .resetPart => Sys2Proof.Machine.execResetPart s
  | .changerCommandStart => Sys2Proof.Machine.execChangerCommandStart s
  | .moveAnswer result => Sys2Proof.Machine.execMoveAnswer result s
  | .scanAnswer result label => Sys2Proof.Machine.execScanAnswer result label s
  | .queryAnswer result stateByte => Sys2Proof.Machine.execQueryAnswer result stateByte s
  | .answerTimer => Sys2Proof.Machine.execAnswerTimer s
  | .queryRetry => Sys2Proof.Machine.execQueryRetry s
  | .magazineOpened which => Sys2Proof.Machine.execMagazineOpened which s
  | .magazineClosed which => Sys2Proof.Machine.execMagazineClosed which s
  | .mailSlotLoaded => Sys2Proof.Machine.execMailSlotLoaded s
  | .mailSlotEmptied => Sys2Proof.Machine.execMailSlotEmptied s
  | .mechanismFault => Sys2Proof.Machine.execMechanismFault s
  | .stray kind params => Sys2Proof.Machine.execStray kind params s
  | .framingDiscard byte => Sys2Proof.Machine.execFramingDiscard byte s
  | .frameGap => Sys2Proof.Machine.execFrameGap s
  | .unpackSegment lane => Sys2Proof.Machine.execUnpackSegment lane s
  | .attnPulseEnd => Sys2Proof.Machine.execAttnPulseEnd s
  | .commandFrameSent => Sys2Proof.Machine.execCommandFrameSent s

end Sys2Proof.Machine
end

