-- ==== Sys2Proof/Safety.lean ====
section
/-! DEFINITION. The terms of the statements: what a transaction covers, what an event leaves alone, when the lanes have nothing to settle, when the slot takes a directive, what own accesses are issued, what tokens stand for, and the invariants of every run. -/

namespace Sys2Proof

/-! ## What a transaction covers -/

/-- The write enables the byte at offset `o` of its range, its burst standing at offset `off`. -/
abbrev Txn.enablesAt (t : Txn) (off o : Nat) : Prop := off ≤ o ∧ o < off + 8 * t.beats ∧ t.strobes[o - off]? = some true

/-- The write enables a byte at an offset from `a` up to, but not with, `b`. -/
abbrev Txn.enablesIn (t : Txn) (off a b : Nat) : Prop := ∃ o, a ≤ o ∧ o < b ∧ t.enablesAt off o

/-- The write enables one run of bytes, at least one (R29, R32). -/
abbrev Txn.oneRun (t : Txn) : Prop := ∃ a n, 1 ≤ n ∧ ∀ i, t.strobes[i]? = some true ↔ a ≤ i ∧ i < a + n

end Sys2Proof

namespace Sys2Proof.Machine

/-- The range that holds a transaction's first address. -/
abbrev Part.rangeHit (s : Part) (t : Txn) : Range := (s.rangeOf t.addr.toNat).1

/-- The offset in that range, which the pool range has none of: 0 there, as outside every range. -/
abbrev Part.offsetIn (s : Part) (t : Txn) : Nat := (s.rangeOf t.addr.toNat).2

/-- A write enables a guarded byte: one of the pool range, the Outcome Word, the Condition Word or the Status Block (R25). -/
abbrev Part.enablesGuarded (s : Part) (t : Txn) : Prop :=
  let off := s.offsetIn t
  (s.rangeHit t = .pool ∧ t.enablesIn off off (off + 8 * t.beats))
  ∨ (s.rangeHit t = .directive
    ∧ (t.enablesIn off 0x080 0x090 ∨ t.enablesIn off 0x100 0x108 ∨ t.enablesIn off 0x200 0x1000))

/-- A write enables some bytes of the Directive Word and not all eight (R26). -/
abbrev Part.splitsWord (s : Part) (t : Txn) : Prop :=
  s.rangeHit t = .directive ∧ t.enablesIn (s.offsetIn t) 0 8 ∧ ∃ o, o < 8 ∧ ¬ t.enablesAt (s.offsetIn t) o

/-- A write enables a byte of the Parameter Block while a directive whose block is read is BUSY and memory has not answered the
read (R28). -/
abbrev Part.meetsRead (s : Part) (t : Txn) : Prop :=
  s.rangeHit t = .directive ∧ t.enablesIn (s.offsetIn t) 0x40 0x80 ∧ ∃ c lost, s.unit.slot = .busy c lost .writes ∨ s.unit.slot = .busy c lost .parameter

/-! ## What an event leaves alone -/

/-- What the lanes' own work never changes: time, pins, window table and timing, the settings in force, twin setting, Hold List and open flags,
labels of the map and of the Span Table, the Directive Unit but its latched bits, the changer but its queue and last
failure, the bus but the unanswered transactions and the own line, the Status Block's update states. -/
structure Still where
  now : Nat
  pins : Pins
  windows : Vector (Option Window) 12
  holdLimit : Nat
  idleTime : Nat
  force : InForce
  twin : Twin
  holds : List Label
  openL : Bool
  openR : Bool
  labels : Vector (Option Label) 27
  spanLabels : List Label
  unit : DirUnit
  changer : Changer
  bus : Bus
  status : List SectionState
  deriving DecidableEq, Repr

/-- The still part of `s`. -/
def Part.still (s : Part) : Still :=
  { now := s.now, pins := s.pins, windows := s.path.windows, holdLimit := s.path.holdLimit, idleTime := s.path.idleTime
    force := s.force, twin := s.twin, holds := s.library.holds, openL := s.library.openL, openR := s.library.openR
    labels := s.library.records.map (·.label), spanLabels := s.span.map (·.label)
    unit := { s.unit with latched := 0 }
    changer := { s.changer with queue := [], nextEntry := 0, lastFailure := none }
    bus := { s.bus with waiting := [], ownLine := [] }
    status := s.status }

/-- Everything but what the end of an event works on by itself: the bus, the latched bits, ATTN and the Status Block's
update states. Two parts with equal blocks agree in every other register, buffer, record and counter. -/
def Part.blocks (s : Part) : Part :=
  { s with bus := Bus.blank, unit := { s.unit with latched := 0, attn := .released }, status := [], touched := [], rose := 0 }

/-- The still part of the blocks: what no event changes but by its own rule, whatever the lanes are doing. -/
def Part.frame (s : Part) : Still := s.blocks.still

/-! ## Own accesses issued (R37) -/

/-- The own accesses not yet answered, in the order they were issued: the one on the port, then the own line. -/
def Part.ownIssued (s : Part) : List OwnAccess :=
  (match s.bus.port with
    | some (.own a _) => [a]
    | _ => []) ++ s.bus.ownLine

/-- No Condition Word read is unanswered, so that none clears latched bits at this event (R27). -/
abbrev Part.noConditionRead (s : Part) : Prop := ∀ w ∈ s.bus.waiting, w.wait ≠ .cond

/-- Whether an own access belongs to an update of a Status Block section. -/
def OwnKind.isStatus : OwnKind → Bool
  | .status .. => true
  | _ => false

/-- The own accesses not yet answered are those of `before`, then those of `issued`, and behind these nothing but updates
of the Status Block. That an Outcome Word write issued at one event with updates stands before them is the model's choice
(log entry 7). -/
def Part.hasIssued (s : Part) (before issued : List OwnAccess) : Prop :=
  ∃ updates, s.ownIssued = before ++ issued ++ updates ∧ updates.all (fun a => a.kind.isStatus) = true

/-- The write of the Outcome Word that `s` shows (R180, R181). -/
def Part.outcomeWrite (s : Part) (second : Bool) : OwnAccess :=
  writeBurst (.outcome second) (s.areaBase + 0x80) (outcomeBytes s.unit.outcome)

/-! ## Lanes with nothing to settle -/

/-- No read job of the lane goes on by itself: none is in READING or ENDING with its chunk and its buffer done with. -/
def Lane.jobsCalm (l : Lane) : Bool :=
  !l.quiet || ((match l.restore with
    | some j => j.phase != .reading && j.phase != .ending
    | none => true) && (match l.verify with
    | some j => j.phase != .reading
    | none => true))

/-- The lane has nothing of its own to do at the end of an event: no read job that goes on by itself, no wait for media or
for a lender, no early warning due, no EOV due. -/
def Lane.calm (l : Lane) : Bool :=
  l.jobsCalm && l.access.loan != .unloading && l.state != .waitingMedia
  && (match l.state, l.volume with
    | .append, some v => decide (v.positions + 80 < l.run.limit)
    | .closing, some _ => l.owedEov.isNone && (l.headDue || l.eovUnderWay)
    | _, _ => true)

/-- A resting lane shows what its bay record says (R86). -/
def Part.follows (s : Part) (k : LaneId) : Bool :=
  !s.present k || !(s.lane k).resting || (s.lane k).state == s.restState k

/-- Neither lane has anything to settle: an event's effect is its own rule's alone. -/
def Part.quiet (s : Part) : Bool := (s.lane .l0).calm && (s.lane .l1).calm && s.follows .l0 && s.follows .l1

/-! ## Directives -/

/-- RESETN is high and the slot takes a directive of `code`: READY, or PENDING with that code (R178, R179). That a guarded
directive's row is carried out in READY too is the model's choice: the row stands for its write and its confirm (log entry
13). -/
abbrev Part.takes (s : Part) (code : Nat) : Prop :=
  s.pins.resetLow = false ∧ (s.unit.slot = .ready ∨ s.unit.slot = .pending code)

/-- `s` with the outcome of a directive composed: the slot BUSY until its write is answered, the copy of the Outcome Word
with the count raised by 1 (R180, R181). -/
def Part.composed (s : Part) (code : Nat) (r : Result) (d : Nat) : Part :=
  { s with unit := { s.unit with
      slot := .busy code false .outcome
      outcome := { code := code, result := r, lost := false, detail := d % 65536, count := (s.unit.outcome.count + 1) % 65536 } } }

/-- The command gives a next state with the directive's result and detail, the write of its Outcome Word issued, and the
effect that `x` shows: nothing else of the frame changes, and with nothing to settle no other block changes, no other own
access is issued but updates of the Status Block, which come after the outcome's write (log entry 7), and the latched bits
are those of `x`. -/
def Judges (c : Instr) (s : State) (code : Nat) (r : Result) (d : Nat) (x : Part) : Prop :=
  ∃ t : State, exec c s = .next t ∧ t.pending = s.pending ∧ t.frame = (x.composed code r d).frame
    ∧ (∃ before, t.hasIssued before [t.outcomeWrite false])
    ∧ (x.quiet = true → t.blocks = (x.composed code r d).blocks ∧ t.hasIssued x.ownIssued [t.outcomeWrite false]
        ∧ (x.noConditionRead → t.unit.latched = x.unit.latched))

/-- The command gives a next state that differs from `s` in the blocks, in the own accesses issued and in the latched bits
only as `x` does, when `x` leaves the lanes nothing to settle, but for updates of the Status Block, which come after the
other accesses of one event (log entry 7). -/
def Leaves (c : Instr) (s : State) (x : Part) : Prop :=
  ∃ t : State, exec c s = .next t ∧ t.pending = s.pending ∧ t.frame = x.frame
    ∧ (x.quiet = true → t.blocks = x.blocks ∧ t.hasIssued x.ownIssued []
        ∧ (x.noConditionRead → t.unit.latched = x.unit.latched))

/-- RETURN_WRITE `t` completes, on lane `k`, the block return of the bytes `block`: it goes on from the return in progress,
whose folds are those of its bytes, and brings it to 32768 bytes; nothing else is unanswered (R94). -/
def Part.completesReturn (s : Part) (t : Txn) (k : LaneId) (block : List Byte) : Prop :=
  s.pins.resetLow = false ∧ s.bus.waiting = [] ∧ block.length = 32768 ∧ block.take 4 = [0x4B, 0x44, 0x53, 0x42]
  ∧ ∃ r, (s.lane k).ret = some r ∧ 32 ≤ r.bytes.length ∧ s.classify t = .ret k r.bytes.length
      ∧ block = r.bytes ++ enabledBytes t ∧ enabledBytes t ≠ []
      ∧ r.headerFold = Fold.start.addAll (r.bytes.take 32) ∧ r.payloadFold = Fold.start.addAll (slice r.bytes 32 32720)

/-! ## The packing state and the record it stands in (R3 to R6) -/

/-- The raw bytes of a record with a token's bytes behind those it has: a literal run as it is, a repeat run's copies, a
copy's bytes one at a time, each from `d` bytes back in the record as it grows (R2, R3). -/
def Token.expand (raw : List Byte) : Token → List Byte
  | .lit bs => raw ++ bs
  | .rep n v => raw ++ List.replicate n v
  | .copy l d => (List.range l).foldl (fun r _ => r ++ [byteAt r (r.length - d)]) raw

/-- The raw bytes of a record with those of tokens behind them. -/
def expandAll (raw : List Byte) (ts : List Token) : List Byte := ts.foldl Token.expand raw

/-- A packing state agrees with the raw bytes that the encoder has passed: its position counts them, its history is the last
4096 of them, its pending literal run the last of all, and no entry of the head table or waiting insertion lies ahead
(R4 to R6). -/
structure Packing.Agrees (k : Packing) (past : List Byte) : Prop where
  pos : past.length = k.pos
  known : k.known = k.pos + k.look.length
  hist : k.hist = past.drop (past.length - 4096)
  lit : k.lit <:+ past
  head : ∀ e ∈ k.head, e.2 < k.pos
  waits : ∀ j ∈ k.waitIns, j < k.pos

/-- The hash of a position that the history and the lookahead still hold (R4). -/
def Packing.hashAt (k : Packing) (j : Nat) : Nat := hash3 (k.rawAt j) (k.rawAt (j + 1)) (k.rawAt (j + 2))

/-- The head table of `t` is that of `k` after the positions `js` were inserted in order: each entry holds the last of them
with its hash, or what it held (R4). -/
def Packing.inserted (k t : Packing) (js : List Nat) : Prop :=
  ∀ h, headGet h t.head = ((js.filter (fun j => k.hashAt j == h)).getLast? <|> headGet h k.head)

/-! ## Invariants of every run -/

/-- The settings stay in the ranges the manual gives them (R36, R123, R136, R178, R181, R140, R141). -/
structure Part.Settings (s : Part) : Prop where
  hold : 1 ≤ s.path.holdLimit ∧ s.path.holdLimit ≤ 255
  idle : 1 ≤ s.path.idleTime ∧ s.path.idleTime ≤ 255
  holds : s.library.holds.length ≤ 32 ∧ s.library.holds.Nodup
  twin : s.twin.on = true → s.pins.lnc = true
  pending : ∀ c, s.unit.slot = .pending c → c ∈ guardedTable
  outcome : s.unit.outcome.count < 65536
  strays : s.changer.strays < 2 ^ 32
  discards : s.changer.discards < 2 ^ 32

/-- No two location records hold one label; the Span Table holds at most 32 entries, all of different labels (R112, R131). -/
structure Part.Labels (s : Part) : Prop where
  map : ∀ p q : Loc, ∀ l, (s.loc p).label = some l → (s.loc q).label = some l → p = q
  span : s.span.length ≤ 32 ∧ (s.span.map (·.label)).Nodup

/-- A FAULTED changer holds no queue and no command (R145). -/
def Part.FaultedEmpty (s : Part) : Prop :=
  s.changer.state = .faulted → s.changer.queue = [] ∧ s.changer.out = none

end Sys2Proof.Machine
end

