-- ==== Sys2Proof/Certificates/Slice0/Obligations.lean ====
section
/-! DEFINITION. The statements for the provers, by the rules of spec/. -/

open Sys2Proof Sys2Proof.Machine

/-! ## Steps, reset -/

/-- A step takes the command at the front of the queue and carries it out on the state with the queue's rest.
The queue is the model's (log entry 25). -/
def Obligations.StepRunsFrontCommand : Prop :=
  ∀ (s : State) (c : Instr) (rest : List Instr), s.pending = c :: rest → step s = exec c { s with pending := rest }

/-- What a hard reset leaves (R33, R34, R36, R41, R61, R85, R130, R137, R143, R150, R178, R181 to R183, R188), at the
straps of log entry 1.
The straps, the primary lane and the QUERY already sent are the model's choices (log entries 1, 6, 23). -/
def Obligations.ResetValues : Prop :=
  let s := State.reset
  s.path.windows = Vector.replicate 12 none ∧ s.path.holdLimit = 10 ∧ s.path.idleTime = 20 ∧ s.path.refusals = 0
  ∧ s.path.lastRefusal = none ∧ s.force = ⟨Vector.replicate 12 none, 10, 20, none⟩
  ∧ (∀ i : Fin 8, (s.stream i).state = .closed ∧ (s.stream i).taken = 0 ∧ (s.stream i).intake = [] ∧ (s.stream i).seg = .empty)
  ∧ s.pool.geometry = none ∧ s.span = [] ∧ s.twin.on = false ∧ s.twin.primary = .l0
  ∧ (∀ k : LaneId, (s.lane k).state = .empty ∧ (s.lane k).code = .none ∧ (s.lane k).held = false
      ∧ (s.lane k).run.isOpen = false ∧ (s.lane k).restore = none ∧ (s.lane k).verify = none)
  ∧ (∀ p : Loc, (s.loc p).occ = .unknown ∧ (s.loc p).label = none) ∧ s.library.holds = []
  ∧ s.library.openL = false ∧ s.library.openR = false
  ∧ s.changer.state = .offline ∧ s.changer.queue = [] ∧ (s.changer.out.map (·.command)) = some .query
  ∧ s.changer.sent = [[0xA7, 0x23, 0x00, 0xDD]]
  ∧ s.unit.slot = .ready ∧ s.unit.latched = 0 ∧ s.unit.mask = 0 ∧ s.unit.attn = .released
  ∧ s.unit.outcome = ⟨0, .accepted, false, 0, 0⟩ ∧ s.pending = []

/-- RESETN low ends every transaction unanswered, empties both lines and the port, releases ATTN, and ends the outstanding
changer command (R39). The rest of the part and the commands that wait stay until RESETN goes high.
While RESETN is low no command but RESETN_HIGH changes anything (R39).
That a command taken meanwhile has no effect is the model's reading (log entry 11). -/
def Obligations.ResetLowStops : Prop :=
  (∀ s : State, ∃ t : State, exec .resetnLow s = .next t ∧ t.pins.resetLow = true
     ∧ t.bus.waiting = [] ∧ t.bus.clientLine = [] ∧ t.bus.ownLine = [] ∧ t.bus.port = none ∧ t.bus.answered = s.bus.answered
     ∧ t.unit.attn = .released ∧ t.changer.out = none ∧ t.changer.receiver = .hunting ∧ t.changer.sent = s.changer.sent
     ∧ t.pending = s.pending ∧ t.streams = s.streams ∧ t.lanes = s.lanes ∧ t.pool = s.pool ∧ t.assembly = s.assembly
     ∧ t.span = s.span ∧ t.library = s.library ∧ t.path = s.path ∧ t.force = s.force ∧ t.twin = s.twin)
  ∧ (∀ (s : State) (c : Instr), s.pins.resetLow = true → c ≠ .resetnLow → (∀ d a l, c ≠ .resetnHigh d a l) →
     exec c s = .next s)

/-- RESETN high after RESETN low resets every block, samples the straps, sends QUERY, and issues the zero Outcome Word as
the first own access (R39, R40, R143, R188).
The primary lane and the model's own counters after reset are its choices (log entries 5, 6, 23). -/
def Obligations.ResetHighResets : Prop :=
  ∀ (s : State) (dab : BitVec 4) (atm lnc : Bool), s.pins.resetLow = true →
    ∃ t : State, exec (.resetnHigh dab atm lnc) s = .next t ∧ t.pins = ⟨false, dab, atm, lnc⟩ ∧ t.pending = s.pending
    ∧ t.path = State.reset.path ∧ t.force = State.reset.force ∧ t.streams = State.reset.streams ∧ t.assembly = State.reset.assembly
    ∧ t.lanes = State.reset.lanes ∧ t.span = [] ∧ t.library = State.reset.library ∧ t.twin = State.reset.twin
    ∧ t.pool.geometry = none ∧ t.pool.buffers = [] ∧ t.pool.free = [] ∧ t.pool.waiters = []
    ∧ t.changer.state = .offline ∧ t.changer.queue = [] ∧ t.changer.lastFailure = none
    ∧ t.changer.sent = s.changer.sent ++ [[0xA7, 0x23, 0x00, 0xDD]] ∧ t.changer.querySent = s.now
    ∧ t.unit = { State.reset.unit with pulseMode := atm }
    ∧ t.bus.waiting = [] ∧ t.bus.clientLine = []
    ∧ t.bus.port = some (.own (writeBurst .zeroOutcome (0x1000000 * dab.toNat + 0x80) (zeros 16)) false)

/-! ## The memory path -/

/-- What the part answers by itself as it accepts a transaction, by form, range and direction (R23). Refused are: with BURST one
that is not well formed by R21 and a read of more than one beat over the Condition Word (R27); with GUARD a write that
enables a guarded byte, and GUARD is latched (R25); with STROBE a write of part of the Directive Word, or of other than one run
of bytes to an intake or return window (R26, R29, R32); with DIRECTION a write to a send window (R31). A refusal is a FAULT,
counted, recorded with reason, range, tag and address, and changes nothing else (R33). A read of an intake or return window is
answered with zeros (R23). A write of the Parameter Block while the directive's read of it is unanswered is held, with a
hold timer that starts now (R22, R28).
That a BURST refusal records the range of the transaction's first address is the model's choice (log entry 34). -/
def Obligations.MalformedBurstRefused : Prop :=
  ∀ (s : State) (t : Txn), s.pins.resetLow = false → s.findTxn s.bus.nextId = none → s.quiet = true →
    let range := s.rangeHit t
    let off := s.offsetIn t
    let refused := fun (r : Reason) =>
      ∃ u : State, exec (.clientTransaction t) s = .next u ∧ u.pending = s.pending
      ∧ u.path = { s.path with
          refusals := (s.path.refusals + 1) % 2 ^ 32
          lastRefusal := some ⟨r, range, t.tag, t.addr⟩ }
      ∧ u.blocks = ({ s.toPart with path := u.path } : Part).blocks
      ∧ (s.noConditionRead → u.unit.latched = s.unit.latched ||| if r = .guarded then 32#64 else 0#64)
      ∧ (s.bus.waiting = [] → u.bus.waiting = [] ∧ u.bus.answered = s.bus.answered
          ++ [⟨t.tag, false, some r, if t.write then [] else zeros (8 * t.beats)⟩])
    let window := (∃ i, range = .intake i) ∨ ∃ k, range = .ret k
    (t.formed = false → refused .burst)
    ∧ (t.formed = true → t.write = false →
      (range = .directive → off ≤ 0x100 → 0x100 < off + 8 * t.beats → t.beats ≠ 1 → refused .burst)
      ∧ (window → ∃ u : State, exec (.clientTransaction t) s = .next u ∧ u.pending = s.pending ∧ u.blocks = s.blocks
          ∧ (s.noConditionRead → u.unit.latched = s.unit.latched)
          ∧ (s.bus.waiting = [] → u.bus.waiting = [] ∧ u.bus.answered = s.bus.answered
              ++ [⟨t.tag, true, none, zeros (8 * t.beats)⟩])))
    ∧ (t.formed = true → t.write = true →
      (s.enablesGuarded t → refused .guarded)
      ∧ (¬ s.enablesGuarded t → s.splitsWord t → refused .strobe)
      ∧ (window → ¬ t.oneRun → refused .strobe)
      ∧ (∀ k, range = .send k → refused .direction)
      ∧ (¬ s.enablesGuarded t → ¬ s.splitsWord t → s.meetsRead t →
          ∃ u : State, exec (.clientTransaction t) s = .next u ∧ u.pending = s.pending ∧ u.blocks = s.blocks
          ∧ (s.noConditionRead → u.unit.latched = s.unit.latched)
          ∧ (s.bus.port ≠ none → u.bus.clientLine = s.bus.clientLine)
          ∧ (s.bus.waiting = [] → u.bus.waiting = [⟨s.bus.nextId, t, .param, some s.now⟩] ∧ u.bus.answered = s.bus.answered)))

/-- A well-formed transaction outside every range of the part passes through, and so do a read of the pool range, a write there
that enables no byte, a read in the directive area off the Condition Word, and a write there that is neither refused nor held:
behind a busy port it joins the client line and waits for memory's answer; no block changes (R23 to R26, R37).
Memory's answer goes back, OKAY with its data or FAULT without a refusal, and no block changes (R22, R24); in the data of a read
in the directive area the bits of the Condition Mask that have no condition are 0 (R189). That a read answered FAULT carries
zeros as its data is the model's choice (log entry 19).
At an OKAY to a write in the directive area the mask copy takes the bytes of the Condition Mask that the write enables, and a
write that enables all eight bytes of the Directive Word is taken as a directive write of the code in its first byte, as
DirectiveWritesTaken has it; the write is answered OKAY (R26, R183).
With no other write unanswered, the answer, OKAY or FAULT, has the parameter read made that let the writes made in PENDING go
first (R179, log entry 55). -/
def Obligations.TransactionPassesThrough : Prop :=
  let made := fun (x : Part) => match x.unit.slot with
    | .busy c lost .writes =>
      (x.setDirSlot (.busy c lost .parameter)).pushOwn [readBurst .parameter (x.areaBase + 0x40) 8]
    | _ => x
  (∀ (s : State) (t : Txn), s.pins.resetLow = false → t.formed = true →
     (s.rangeHit t = .other
       ∨ (s.rangeHit t = .pool ∧ (t.write = false ∨ ¬ s.enablesGuarded t))
       ∨ (s.rangeHit t = .directive ∧ t.write = false ∧ (0x100 < s.offsetIn t ∨ s.offsetIn t + 8 * t.beats ≤ 0x100))
       ∨ (s.rangeHit t = .directive ∧ t.write = true ∧ ¬ s.enablesGuarded t ∧ ¬ s.splitsWord t ∧ ¬ s.meetsRead t)) →
     s.bus.port ≠ none → s.bus.waiting = [] → s.quiet = true →
     ∃ u : State, exec (.clientTransaction t) s = .next u ∧ u.pending = s.pending ∧ u.blocks = s.blocks
     ∧ u.unit.latched = s.unit.latched
     ∧ u.bus.clientLine = s.bus.clientLine ++ [(s.bus.nextId, t)] ∧ u.bus.waiting = [⟨s.bus.nextId, t, .line, none⟩]
     ∧ u.bus.answered = s.bus.answered ∧ u.bus.port = s.bus.port)
  ∧ (∀ (s : State) (id : Nat) (t : Txn) (held : Option Nat) (ok : Bool) (data : List Byte), s.pins.resetLow = false →
     s.bus.port = some (.client id t) → s.bus.waiting = [⟨id, t, .line, held⟩] →
     (s.rangeHit t ≠ .directive ∨ t.write = false ∨ ok = false) →
     data.length = (if t.write then 0 else 8 * t.beats) → s.quiet = true →
     let off := s.offsetIn t
     ∃ (u : State) (back : List Byte), exec (.passedThroughAnswer ok data) s = .next u ∧ u.pending = s.pending
     ∧ u.blocks = (made s.toPart).blocks ∧ u.hasIssued (made s.toPart).ownIssued []
     ∧ u.unit.latched = s.unit.latched ∧ u.bus.waiting = []
     ∧ u.bus.answered = s.bus.answered
         ++ [⟨t.tag, ok, none, if ok then back else if t.write then [] else zeros (8 * t.beats)⟩]
     ∧ back.length = data.length
     ∧ (∀ n b, data[n]? = some b → back[n]? = some (if s.rangeHit t = .directive ∧ 0x108 ≤ off + n ∧ off + n < 0x110 then
         b &&& ([0xFF, 0xFF, 0, 0, 0x3F, 0, 0, 0] : List Byte).getD (off + n - 0x108) 0 else b)))
  ∧ (∀ (s : State) (id : Nat) (t : Txn) (held : Option Nat) (mask : BitVec 64), s.pins.resetLow = false →
     s.bus.port = some (.client id t) → s.bus.waiting = [⟨id, t, .line, held⟩] → s.rangeHit t = .directive → t.write = true →
     let off := s.offsetIn t
     (∀ n : Fin 64, mask.getLsbD n.val = if t.enablesAt off (0x108 + n.val / 8) then
         (byteAt t.data (0x108 + n.val / 8 - off)).getLsbD (n.val % 8) else s.unit.mask.getLsbD n.val) →
     let c := Instr.passedThroughAnswer true []
     let q : Part := { s.freePort.okay id [] with unit := { s.unit with mask := mask } }
     let whole := ∀ o, o < 8 → t.enablesAt off o
     let leaves := fun (x : Part) => Leaves c s x
       ∧ (x.quiet = true → ∀ u : State, exec c s = .next u → u.bus.answered = s.bus.answered ++ [⟨t.tag, true, none, []⟩])
     (whole → leaves (made (q.takeDirective (byteAt t.data 0).toNat))) ∧ (¬ whole → leaves (made q)))

/-- Answers of one tag go back in the order of their transactions. Of each tag exactly the longest front part of the
unanswered ones is answered whose answers are decided or are Condition Word reads, in their order and with the answers decided
for them; the rest stays, in order (R22). The first Condition Word read so answered carries the latched and the level bits and
clears the latched ones, every later one the level bits alone (R27, R182).
That transactions answered at one event are served in the order of their acceptance is the model's reading (log entry 14). -/
def Obligations.AnswersKeepTagOrder : Prop :=
  ∀ s : Part, (∀ w ∈ s.bus.waiting, ∀ a, w.wait = .ready a → a.tag = w.txn.tag) →
    let mine := fun (g : BitVec 4) => s.bus.waiting.filter (fun w => w.txn.tag == g)
    let due := fun (g : BitVec 4) => (mine g).takeWhile (fun w => match w.wait with
      | .ready _ | .cond => true
      | _ => false)
    (∀ g, s.deliver.bus.waiting.filter (fun w => w.txn.tag == g) = (mine g).drop (due g).length)
    ∧ ∃ (ws : List Waiting) (as : List Answer), ws.Sublist s.bus.waiting ∧ (∀ g, ws.filter (fun w => w.txn.tag == g) = due g)
      ∧ s.deliver.bus.answered = s.bus.answered ++ as ∧ as.length = ws.length
      ∧ (∀ (n : Nat) (w : Waiting), ws[n]? = some w → as[n]? = some (match w.wait with
          | .ready a => a
          | _ => ⟨w.txn.tag, true, none, leBytes 8 (if (ws.take n).any (fun x => x.wait == .cond) then s.levelBits
              else s.condition).toNat⟩))
      ∧ s.deliver.unit.latched = if ws.any (fun x => x.wait == .cond) then 0 else s.unit.latched

/-- A single-beat read of the Condition Word with no earlier transaction unanswered returns latched and level bits and
clears the latched bits it returned; no block changes (R27, R182). -/
def Obligations.ConditionReadClears : Prop :=
  ∀ (s : State) (t : Txn), s.pins.resetLow = false → s.classify t = .cond → s.bus.waiting = [] → s.quiet = true →
    ∃ u : State, exec (.conditionWordRead t) s = .next u ∧ u.pending = s.pending ∧ u.blocks = s.blocks
    ∧ u.unit.latched = 0 ∧ u.bus.waiting = []
    ∧ u.bus.answered = s.bus.answered ++ [⟨t.tag, true, none, leBytes 8 s.condition.toNat⟩]

/-- A write of the Condition Mask sets exactly the bytes it enables, and no block but the mask changes (R183). -/
def Obligations.MaskTakesEnabledBytes : Prop :=
  ∀ (s : State) (strobes : BitVec 8) (value : BitVec 64), s.pins.resetLow = false →
    ∃ u : State, exec (.conditionMaskWrite strobes value) s = .next u ∧ u.pending = s.pending
    ∧ (∀ n : Fin 64, u.unit.mask.getLsbD n.val =
        if strobes.getLsbD (n.val / 8) then value.getLsbD n.val else s.unit.mask.getLsbD n.val)
    ∧ u.blocks = ({ s.toPart with unit := { s.unit with mask := u.unit.mask } } : Part).blocks
    ∧ (s.noConditionRead → u.unit.latched = s.unit.latched)

/-- In level mode, after every command while RESETN is high ATTN is driven exactly when a masked Condition Word bit is
set (R183). -/
def Obligations.LevelAttnFollows : Prop :=
  ∀ (s t : State) (c : Instr), s.pins.resetLow = false → c ≠ .resetnLow → (∀ d a l, c ≠ .resetnHigh d a l) →
    exec c s = .next t → t.unit.pulseMode = false →
    t.unit.attn = if t.condition &&& t.unit.mask = 0 then .released else .level

/-! ## Streams and the encoder -/

/-- An intake write that its stream takes: the bytes join the intake buffer, the counts rise, a running idle timer starts
again, the record ends at its declared length, the write is answered OKAY; no other block changes (R29, R47, R48).
An intake write that its stream does not take, judged in the order of R47: without a record NO RECORD, away from the
next offset SEQUENCE, past a length OVERRUN; each is counted and recorded, and no other block changes.
An intake write for which the intake buffer has no room is held, unanswered, with a hold timer that starts now and the hold
limit in force; no block changes (R22, R30, R36, R47).
The answer is decided at the event (log entry 15). -/
def Obligations.IntakeWriteTakenOrRefused : Prop :=
  (∀ (s : State) (t : Txn) (i : Fin 8) (off : Nat), s.pins.resetLow = false → s.classify t = .intake i off →
     s.bus.waiting = [] → (s.stream i).state = .record → off = (s.stream i).taken % s.intakeSize i →
     ((s.stream i).declared ≠ 0 → (s.stream i).recTaken + (enabledBytes t).length ≤ (s.stream i).declared) →
     (s.stream i).recTaken + (enabledBytes t).length ≤ 2 ^ 36 - 1 →
     (s.stream i).intake.length + (enabledBytes t).length ≤ 256 → s.quiet = true →
     let x := s.stream i
     let n := x.recTaken + (enabledBytes t).length
     ∃ u : State, exec (.intakeWrite t) s = .next u ∧ u.pending = s.pending
     ∧ u.blocks = (s.setStream i { x with
         intake := x.intake ++ enabledBytes t
         taken := (x.taken + (enabledBytes t).length) % 2 ^ 64
         recTaken := n
         idle := if x.idle = none then none else some ⟨s.now, 100000 * s.force.idleTime⟩
         state := if x.declared ≠ 0 ∧ n = x.declared then .ending else .record }).blocks
     ∧ u.unit.latched = s.unit.latched ∧ u.bus.waiting = [] ∧ u.bus.answered = s.bus.answered ++ [⟨t.tag, true, none, []⟩])
  ∧ (∀ (s : State) (t : Txn) (i : Fin 8) (off : Nat) (r : Reason), s.pins.resetLow = false →
     s.classify t = .intake i off → s.bus.waiting = [] → s.quiet = true →
     (((s.stream i).state ≠ .record ∧ r = .noRecord)
       ∨ ((s.stream i).state = .record ∧ off ≠ (s.stream i).taken % s.intakeSize i ∧ r = .sequence)
       ∨ ((s.stream i).state = .record ∧ off = (s.stream i).taken % s.intakeSize i ∧ r = .overrun
           ∧ (((s.stream i).declared ≠ 0 ∧ (s.stream i).declared < (s.stream i).recTaken + (enabledBytes t).length)
             ∨ 2 ^ 36 - 1 < (s.stream i).recTaken + (enabledBytes t).length))) →
     ∃ u : State, exec (.intakeWrite t) s = .next u ∧ u.pending = s.pending
     ∧ u.blocks = ({ s.toPart with path := { s.path with
         refusals := (s.path.refusals + 1) % 2 ^ 32
         lastRefusal := some ⟨r, .intake i, t.tag, t.addr⟩ } } : Part).blocks
     ∧ u.unit.latched = s.unit.latched ∧ u.bus.waiting = [] ∧ u.bus.answered = s.bus.answered ++ [⟨t.tag, false, some r, []⟩])
  ∧ (∀ (s : State) (t : Txn) (i : Fin 8) (off : Nat), s.pins.resetLow = false → s.classify t = .intake i off →
     s.bus.waiting = [] → (s.stream i).state = .record → off = (s.stream i).taken % s.intakeSize i →
     ((s.stream i).declared ≠ 0 → (s.stream i).recTaken + (enabledBytes t).length ≤ (s.stream i).declared) →
     (s.stream i).recTaken + (enabledBytes t).length ≤ 2 ^ 36 - 1 →
     256 < (s.stream i).intake.length + (enabledBytes t).length → s.quiet = true →
     ∃ u : State, exec (.intakeWrite t) s = .next u ∧ u.pending = s.pending ∧ u.blocks = s.blocks
     ∧ u.unit.latched = s.unit.latched ∧ u.bus.waiting = [⟨s.bus.nextId, t, .intake i (100 * s.force.holdLimit) off, some s.now⟩]
     ∧ u.bus.answered = s.bus.answered)

/-- A held intake write whose hold limit has passed is answered FAULT STALL, and STREAM STALL is latched; no other block
changes (R30, R33).
The timer may run out late (log entry 2). -/
def Obligations.HoldLimitStalls : Prop :=
  ∀ (s : State) (id : Nat) (t : Txn) (i : Fin 8) (limit off start : Nat), s.pins.resetLow = false →
    s.bus.waiting = [⟨id, t, .intake i limit off, some start⟩] → t.write = true → start + limit ≤ s.now →
    ∃ u : State, exec (.holdTimer 0) s = .next u ∧ u.pending = s.pending
    ∧ u.blocks = ({ s.toPart with path := { s.path with
        refusals := (s.path.refusals + 1) % 2 ^ 32
        lastRefusal := some ⟨.stall, .intake i, t.tag, t.addr⟩ } } : Part).blocks
    ∧ u.unit.latched = s.unit.latched ||| 4#64
    ∧ u.bus.waiting = [] ∧ u.bus.answered = s.bus.answered ++ [⟨t.tag, false, some .stall, []⟩]

/-- The encoder takes the oldest intake byte into its lookahead and folds it; the waiting insertions whose third byte it is are
made, in order, and the others wait on; the last byte of an ending record sets record ended and drops those; no other block
changes (R4, R5, R7, R49).
When the encoder acts is the command's event (log entry 3). -/
def Obligations.EncoderTakesByte : Prop :=
  ∀ (s : State) (i : Fin 8) (b : Byte) (rest : List Byte), s.pins.resetLow = false → s.bus.waiting = [] →
    (s.stream i).intake = b :: rest → ((s.stream i).state = .record ∨ (s.stream i).state = .ending) →
    (s.stream i).waiting = [] → (s.stream i).pack.look.length < 66 →
    let p := (s.stream i).pack
    ∃ (u : State) (k : Packing), exec (.encoderTakeByte i) s = .next u ∧ u.pending = s.pending
    ∧ u.blocks = (s.setStream i { s.stream i with intake := rest, pack := k }).blocks ∧ u.unit.latched = s.unit.latched
    ∧ k.look = p.look ++ [b] ∧ k.known = p.known + 1 ∧ k.fold = p.fold.add b ∧ k.pos = p.pos ∧ k.hist = p.hist ∧ k.lit = p.lit
    ∧ k.ended = (p.ended || ((s.stream i).state == .ending && rest.isEmpty))
    ∧ ({ p with look := p.look ++ [b] } : Packing).inserted k (p.waitIns.filter (fun j => j + 2 < p.known + 1))
    ∧ k.waitIns = if (s.stream i).state = .ending ∧ rest = [] then []
        else p.waitIns.filter (fun j => ¬ j + 2 < p.known + 1)

/-- A decision of the encoder takes at least one byte from the lookahead, and its tokens, produced behind the record's bytes
before the pending literal run, give that run and the bytes taken, less the literal run left; so the packing state agrees
with the record again (R3, R8, R9, R10). The positions passed whose third byte is known are inserted in order; the others
wait, or are dropped when the record has ended (R4, R5). -/
def Obligations.DecisionLosesNoByte : Prop :=
  ∀ (k : Packing) (past : List Byte), k.look ≠ [] → k.lit.length < 64 → k.Agrees past →
    let d := k.decision
    ∃ n, 1 ≤ n ∧ n ≤ k.look.length ∧ d.1.pos = k.pos + n ∧ d.1.look = k.look.drop n
    ∧ expandAll (past.take (past.length - k.lit.length)) d.2 ++ d.1.lit = past ++ k.look.take n
    ∧ d.1.Agrees (past ++ k.look.take n)
    ∧ rawLength d.2 + d.1.lit.length = k.lit.length + n
    ∧ d.1.lit.length < 64 ∧ d.1.known = k.known ∧ d.1.fold = k.fold ∧ d.1.ended = k.ended
    ∧ k.inserted d.1 ((List.range' k.pos n).filter (fun j => j + 2 < k.known))
    ∧ d.1.waitIns = if k.ended = true then k.waitIns
        else k.waitIns ++ (List.range' k.pos n).filter (fun j => ¬ j + 2 < k.known)

/-- A decision short of the record's end with an OPEN segment that has room: its tokens join the segment, and no other
block changes (R7, R51, R52). -/
def Obligations.DecisionFillsSegment : Prop :=
  ∀ (s : State) (i : Fin 8) (g : Segment), s.pins.resetLow = false →
    ((s.stream i).state = .record ∨ (s.stream i).state = .ending) → (s.stream i).waiting = [] →
    (s.stream i).seg = .filling g → (s.stream i).pack.look.length = 66 →
    packedLength g.tokens + packedLength (s.stream i).pack.decision.2 ≤ 4096 →
    ¬ ((s.stream i).pack.decision.1.ended = true ∧ (s.stream i).pack.decision.1.look = []) →
    ∃ u : State, exec (.encoderDecision i) s = .next u ∧ u.pending = s.pending
    ∧ u.blocks = (s.setStream i { s.stream i with
        pack := (s.stream i).pack.decision.1
        seg := .filling { g with tokens := g.tokens ++ (s.stream i).pack.decision.2 }
        placed := (s.stream i).placed + rawLength (s.stream i).pack.decision.2 }).blocks
    ∧ (s.noConditionRead → u.unit.latched = s.unit.latched)

/-- A stream's idle timer that has run out closes its OPEN segment as non-last and puts it at the tail of its lane's offer
queue; no other block changes (R53, R54).
A lane's block idle timer that has run out closes its open block: filled with 0x00 and folded to its end, IN FLIGHT,
its copy QUEUED at the tail of the lane's send queue, and for the primary lane of a twin run also at the twin lane's; own writes
carry the fill, the header and the trailer into its buffer; no other block changes (R66, R77, R80, R81, R84).
A timer may run out late (log entry 2); how a run of bytes is cut into bursts is the model's choice (log entry 8). -/
def Obligations.IdleTimersClose : Prop :=
  (∀ (s : State) (i : Fin 8) (k : LaneId) (g : Segment) (tm : Timer), s.pins.resetLow = false →
     (s.stream i).idle = some tm → tm.start + tm.period ≤ s.now → (s.stream i).seg = .filling g →
     (s.stream i).lane = some k →
     ∃ u : State, exec (.idleTimer i) s = .next u ∧ u.pending = s.pending
     ∧ u.blocks = ((s.setStream i { s.stream i with seg := .closed g, idle := none }).setAsm k
         { s.asm k with offers := (s.asm k).offers ++ [i] }).blocks
     ∧ (s.noConditionRead → u.unit.latched = s.unit.latched) ∧ u.hasIssued s.ownIssued [])
  ∧ (∀ (s : State) (k : LaneId) (b : Nat) (tm : Timer), s.pins.resetLow = false →
     (s.asm k).timer = some tm → tm.start + tm.period ≤ s.now → (s.asm k).openBlock = some b →
     b < s.pool.buffers.length →
     let x := s.buffer b
     let both := s.twin.on = true ∧ k = s.twin.primary ∧ (s.lane k.other).run.isOpen = true
     let fold := x.fold.addAll (zeros (32720 - x.used))
     let write := fun (p : Part) (off : Nat) (bs : List Byte) =>
       p.pushWrites (fun _ => .poolWrite x.origin b x.blk) (s.bufferBase b + off) bs
     let header := [0x4B, 0x44, 0x53, 0x42, 2, 0, 0, byteOf x.segments] ++ zeros 16 ++ leBytes 2 x.used ++ zeros 6
     let trailer := leBytes 4 fold.value ++ zeros 4 ++ [0x4B, 0x44, 0x53, 0x45] ++ zeros 4
     let queued := fun (p : Part) (j : LaneId) =>
       p.setLane j { s.lane j with queue := (s.lane j).queue ++ [⟨b, none, 0, false⟩] }
     let closed := fun (copies : Pair (Option CopyState)) => (s.setBuffer b { x with
         fold := fold, check := fold.value, state := .inFlight, copies := copies }).setAsm k
       { s.asm k with openBlock := none, timer := none }
     let written := fun (p : Part) =>
       Leaves (.blockIdleTimer k) s
         (write (write (write p (32 + x.used) (zeros (32720 - x.used))) 0 header) 32752 trailer)
     (¬ both → written (queued (closed (x.copies.set k (some .queued))) k))
     ∧ (both → written (queued (queued (closed ⟨some .queued, some .queued⟩) k) k.other)))

/-! ## Pool and blocks -/

/-- The head entry of a lane's offer queue that fits its open block is appended whole: header, tokens and, with LAST, the
record check join the payload by own writes into its buffer, and the stream's segment buffer empties with the next index;
no other block changes (R53, R71, R73, R76, R83). Without an open block the lane takes the buffer at the head of the free list,
POOL LOW being latched where fewer than 4 are left, and the entry goes there; with none free the lane joins the buffer waiters
(R64, R71, R72).
An entry that does not fit is split at the last token boundary that does: the front part is appended, the block closes and joins
the send queue, and the rest, with the next index and FIRST clear, is appended to the next free buffer, its index reported to the
stream (R72, R74, R77, R80).
When the assembler acts is the command's event (log entry 3); how a run of bytes is cut into bursts is the model's choice (log
entry 8). -/
def Obligations.SegmentAppendedWhole : Prop :=
  ∀ (s : State) (k : LaneId) (i : Fin 8) (g : Segment) (rest : List (Fin 8)), s.pins.resetLow = false →
    (s.lane k).run.isOpen = true → (s.lane k).run.stopAfter = false → (s.lane k).state ≠ .fault → s.pool.geometry ≠ none →
    (s.asm k).offers = i :: rest → (s.asm k).remainder = none → (s.asm k).mark = none →
    (s.stream i).seg = .closed g → (s.stream i).waiting = [] → (s.stream i).flush = false → packedLength g.tokens ≤ 4096 →
    let r := (s.stream i).current.getD 0
    let size := 20 + packedLength g.tokens + (if g.last then 4 else 0)
    let write := fun (p : Part) (b off : Nat) (bs : List Byte) =>
      p.pushWrites (fun _ => .poolWrite (p.buffer b).origin b (p.buffer b).blk) (s.bufferBase b + off) bs
    let appended := fun (p : Part) (b : Nat) (q : Segment) =>
      let x := p.buffer b
      let bytes := segmentBytes i.val r q
      ((write p b (32 + x.used) bytes).setBuffer b { x with
          used := x.used + bytes.length
          segments := x.segments + 1
          fold := x.fold.addAll bytes
          summary := addSummary i ⟨r, q.index, q.first⟩ ⟨r, q.index, q.last⟩ x.summary }).setAsm k { p.asm k with
        timer := some ⟨s.now, 100000 * s.force.idleTime⟩ }
    let reported := fun (p : Part) (index : Nat) => (p.setAsm k { p.asm k with offers := rest }).setStream i { s.stream i with
        seg := .empty
        nextIndex := .num (index + 1)
        state := if g.last then .idle else (s.stream i).state
        current := if g.last then none else (s.stream i).current }
    let taken := fun (p : Part) (b : Nat) (free : List Nat) =>
      let q := (({ p with pool := { p.pool with
          free := free, waiters := p.pool.waiters.filter (fun j => j ≠ k), nextBlk := p.pool.nextBlk + 1 } } : Part).setBuffer b
        { Buffer.blank with state := .filling, origin := k, blk := p.pool.nextBlk }).setAsm k { p.asm k with openBlock := some b }
      if free.length < 4 then q.latch .poolLow else q
    let closed := fun (p : Part) (b : Nat) =>
      let x := p.buffer b
      let fold := x.fold.addAll (zeros (32720 - x.used))
      let header := [0x4B, 0x44, 0x53, 0x42, 2, 0, 0, byteOf x.segments] ++ zeros 16 ++ leBytes 2 x.used ++ zeros 6
      let trailer := leBytes 4 fold.value ++ zeros 4 ++ [0x4B, 0x44, 0x53, 0x45] ++ zeros 4
      (((write (write (write p b (32 + x.used) (zeros (32720 - x.used))) b 0 header) b 32752 trailer).setBuffer b { x with
          fold := fold, check := fold.value, state := .inFlight, copies := x.copies.set k (some .queued) }).setAsm k
        { p.asm k with openBlock := none, timer := none }).setLane k { p.lane k with
          queue := (p.lane k).queue ++ [⟨b, none, 0, false⟩] }
    segmentBytes i.val r g = segmentHeader i.val r g ++ g.tokens.flatMap Token.packed ++ (if g.last then leBytes 4 g.check else [])
    ∧ (segmentBytes i.val r g).length = size
    ∧ (∀ b, (s.asm k).openBlock = some b → b < s.pool.buffers.length → g.index < 2 ^ 32 - 1 →
        (s.buffer b).used + size + 32 ≤ 32720 → (s.buffer b).segments < 254 →
        Leaves (.segmentAppend k) s (reported (appended s.toPart b g) g.index))
    ∧ (∀ b free, (s.asm k).openBlock = none → s.pool.free = b :: free → b < s.pool.buffers.length → g.index < 2 ^ 32 - 1 →
        Leaves (.segmentAppend k) s (reported (appended (taken s.toPart b free) b g) g.index))
    ∧ ((s.asm k).openBlock = none → s.pool.free = [] →
        Leaves (.segmentAppend k) s { s.toPart with pool := { s.pool with
          waiters := if k ∈ s.pool.waiters then s.pool.waiters else s.pool.waiters ++ [k] } })
    ∧ (∀ b n free front back, (s.asm k).openBlock = some b → s.pool.free = n :: free → b < s.pool.buffers.length →
        n < s.pool.buffers.length → g.index < 2 ^ 32 - 2 → s.twin.on = false → (s.buffer b).used ≤ 32720 →
        32720 < (s.buffer b).used + size → g.tokens = front ++ back → front ≠ [] →
        (s.buffer b).used + 20 + packedLength front ≤ 32720 →
        (∀ t ∈ back.head?, 32720 < (s.buffer b).used + 20 + packedLength (front ++ [t])) →
        let rear : Segment := { g with
          index := g.index + 1, rawOffset := g.rawOffset + rawLength front, first := false, tokens := back }
        let first := closed (appended s.toPart b { g with tokens := front, last := false }) b
        Leaves (.segmentAppend k) s (reported (appended (taken first n free) n rear) (g.index + 1)))

/-! ## Lanes and the order protocol -/

/-- A pending UNLOAD or SEEK goes out in a header read: once offset 31 is answered it is delivered, outstanding with a
return timer of 60 s, and no longer pending (R87, R88, R92).
A short return is taken by its kind (R94 to R98). END, or FAULT with MEDIA or PROTECTED, to a read job's chunk: the sequences not
judged are LOST and expected goes past the chunk; END OF MEDIA does so to the end of the volume, and a verify job counts the chunk
(R158, R169, R170). With the return buffer free the next chunk's SEEK is pending at that event while sequences are left (R158,
R169). Otherwise the counts stand all the same: a restore with another volume then expects that volume's first block, a verify job
with no sequence left ends with COMPLETE, and one that a restore waits for keeps its expected sequence (R158, R173, R174).
NO CARTRIDGE, to anything sent or outstanding, puts the lane in FAULT, the bay UNKNOWN and the jobs to an end,
a verify's sequences LOST first (R97, R169). END to the identity SEEK takes a job whose identity passed to READING and its first
chunk, and ends it with WRONG VOLUME, the cartridge SUSPECT, otherwise (R157). MEDIA, PROTECTED or END OF MEDIA to blocks sent
abandons the volume, to an UNLOAD puts the lane in FAULT with that code (R97, R121). UNLOADED asks for the home move, or, from
a lender, for the borrower's load (R98, R156).
The numbers of servings and entries are the model's own (log entry 5). -/
def Obligations.OrderDelivered : Prop :=
  (∀ (s : State) (t : Txn) (k : LaneId) (o : Order), s.pins.resetLow = false → s.classify t = .send k 0 → t.beats = 4 →
    s.bus.waiting = [] → (s.lane k).held = false → (s.lane k).state ≠ .fault → (s.lane k).committed = false →
    (s.lane k).pending = some o → (o = .unload ∨ ∃ a b, o = .seek a b) → s.quiet = true →
    let seek := match o with | .seek a b => some (a, b) | _ => none
    ∃ (u : State) (v : Serving), exec (.sendRead t) s = .next u ∧ u.pending = s.pending
    ∧ u.blocks = (s.setLane k { s.lane k with
        serving := some v, nextServing := (s.lane k).nextServing + 1, pending := none
        outstanding := some ⟨seek, some ⟨s.now, 60000000⟩⟩ }).blocks
    ∧ v.next = 32 ∧ v.committed = false ∧ u.unit.latched = s.unit.latched
    ∧ u.bus.answered = s.bus.answered ++ [⟨t.tag, true, none,
        [0x4B, 0x44, 0x53, 0x42, if seek.isSome then 0x10 else 0x11] ++ zeros 11
          ++ leBytes 4 ((seek.map (·.1)).getD 0) ++ leBytes 4 ((seek.map (·.2)).getD 0) ++ zeros 2 ++ [byteOf k.num] ++ zeros 5⟩])
  ∧ (∀ (s : State) (t : Txn) (k : LaneId) (kind reason : Byte), s.pins.resetLow = false → s.classify t = .ret k 0 →
     s.bus.waiting = [] → (enabledBytes t).length = 32 → (enabledBytes t).take 6 = [0x4B, 0x44, 0x53, 0x52, kind, reason] →
     (s.lane k).state ≠ .fault →
     let c := Instr.returnWrite t
     let l := { s.lane k with ret := none, cut := none }
     let fault : FormatterFault := if reason = 1 then .media else if reason = 2 then .noCartridge
       else if reason = 3 then .isProtected else .endOfMedia
     let worn := kind = 2 ∧ (reason = 1 ∨ reason = 3)
     let full := kind = 2 ∧ reason = 4
     let shown := if kind = 2 then some fault else l.lastFault
     let seeking := ∃ o, l.outstanding = some o ∧ o.seek ≠ none
     (∀ (j : RestoreJob) (v : VolRecord) (a last : Nat), seeking → l.sent = [] → l.restore = some j →
       (j.phase = .reading ∨ j.phase = .waitingDest) → j.cursor ≤ j.effLast → l.access.chunk = some (a, last) →
       j.volumes[j.current]? = some v →
       let ended := fun (stop : Nat) => Leaves c s (s.setLane k { l with
         outstanding := none, access := { l.access with chunk := none }, lastFault := shown
         restore := some { j with
           lost := j.lost + (stop - j.expected), gap := j.gap || decide (j.expected < stop), expected := max j.expected stop } })
       let goesOn := fun (stop : Nat) =>
         let n := max j.expected stop
         (n ≤ v.lastBlock → Leaves c s (s.setLane k { l with
           outstanding := none, pending := some (.seek n (min (n + 63) v.lastBlock))
           access := { l.access with chunk := some (n, min (n + 63) v.lastBlock) }, lastFault := shown
           restore := some { j with
             lost := j.lost + (stop - j.expected), gap := j.gap || decide (j.expected < stop), expected := n } }))
         ∧ (v.lastBlock < n → ∃ u : State, exec c s = .next u ∧ u.pending = s.pending ∧ u.frame = s.frame
           ∧ ((u.lane k).restore <|> (u.lane k).lastRestore).map (fun y => (y.lost, y.current, y.expected))
             = some (j.lost + (stop - j.expected), match j.volumes[j.current + 1]? with
               | some w => (j.current + 1, w.firstBlock)
               | none => (j.current, n)))
       (kind = 1 ∨ worn → ended (last + 1)) ∧ (full → ended (v.lastBlock + 1))
       ∧ (j.phase = .reading → l.state = .reading → l.buffer = none → l.access.walk = none →
         (∀ y, l.verify = some y → y.phase = .suspended) → (s.lane k.other).calm = true →
         (kind = 1 ∨ worn → goesOn (last + 1)) ∧ (full → goesOn (v.lastBlock + 1))))
     ∧ (∀ (j : VerifyJob) (a last : Nat), seeking → l.sent = [] → (∀ r, l.restore = some r → r.phase = .waitingVerify) →
       l.verify = some j → j.phase = .reading → l.access.chunk = some (a, last) →
       let absent := fun (q : Nat) => j.eovVerified && decide (j.absentFrom ≠ 0 ∧ j.absentFrom ≤ q ∧ q < j.verified)
       let n := fun (stop : Nat) => ((List.range' j.expected (stop - j.expected)).filter (fun q => !absent q)).length
       let ended := fun (stop : Nat) => Leaves c s (s.setLane k { l with
         outstanding := none, access := { l.access with chunk := none }, lastFault := shown
         verify := some { j with
           lost := j.lost + n stop, gaps := if n stop = 0 then j.gaps else Vector.replicate 8 true
           expected := max j.expected stop, chunks := j.chunks + 1 } })
       let goesOn := fun (stop : Nat) =>
         let e := max j.expected stop
         (e ≤ j.verified → l.restore = none → Leaves c s (s.setLane k { l with
           outstanding := none, pending := some (.seek e (min (e + 63) j.verified))
           access := { l.access with chunk := some (e, min (e + 63) j.verified) }, lastFault := shown
           verify := some { j with
             lost := j.lost + n stop, gaps := if n stop = 0 then j.gaps else Vector.replicate 8 true
             expected := e, chunks := j.chunks + 1 } }))
         ∧ (e ≤ j.verified → l.restore ≠ none → ∃ u : State, exec c s = .next u ∧ u.pending = s.pending ∧ u.frame = s.frame
           ∧ ((u.lane k).verify <|> (u.lane k).lastVerify).map (fun y => (y.lost, y.chunks, y.expected))
             = some (j.lost + n stop, j.chunks + 1, e))
         ∧ (j.verified < e → ∃ u : State, exec c s = .next u ∧ u.pending = s.pending ∧ u.frame = s.frame ∧ (u.lane k).verify = none
           ∧ (u.lane k).lastVerify.map (fun y => (y.result, y.lost, y.chunks, y.expected))
             = some (.complete, j.lost + n stop, j.chunks + 1, e))
       (kind = 1 ∨ worn → ended (last + 1)) ∧ (full → ended (j.verified + 1))
       ∧ (l.state = .reading → l.buffer = none → l.access.walk = none → (s.lane k.other).calm = true →
         (kind = 1 ∨ worn → goesOn (last + 1)) ∧ (full → goesOn (j.verified + 1)))
       ∧ (kind = 2 → reason = 2 → ∃ u : State, exec c s = .next u
           ∧ (u.lane k).lastVerify.map (fun y => (y.result, y.chunks, y.lost)) = some (.laneFault, j.chunks + 1, j.lost + n (last + 1))))
     ∧ (kind = 2 → reason = 2 → l.sent ≠ [] ∨ l.outstanding ≠ none → ∃ u : State, exec c s = .next u ∧ u.pending = s.pending
         ∧ u.frame = s.frame ∧ (u.lane k).state = .fault ∧ (u.lane k).code = .noCartridge ∧ (u.lane k).lastFault = some .noCartridge
         ∧ (u.lane k).restore = none ∧ (u.lane k).verify = none ∧ (u.loc (bay k)).occ = .unknown)
     ∧ (∀ (j : RestoreJob) (v : VolRecord), seeking → l.sent = [] → l.restore = some j → j.phase = .identifying → l.verify = none →
       l.buffer = none → l.access.walk = none → l.access.loan = .none → j.volumes[j.current]? = some v → j.current = 0 →
       j.expected ≤ v.lastBlock → j.cursor ≤ j.effLast → (s.lane k.other).calm = true →
       (kind = 1 → l.access.identity = some true → ∃ u : State, exec c s = .next u ∧ u.pending = s.pending ∧ u.frame = s.frame
         ∧ (u.lane k).state = .reading ∧ (u.lane k).restore = some { j with phase := .reading }
         ∧ (u.lane k).pending = some (.seek j.expected (min (j.expected + 63) v.lastBlock)))
       ∧ ((kind = 1 ∧ l.access.identity ≠ some true) ∨ worn ∨ full → ∃ u : State, exec c s = .next u ∧ u.pending = s.pending
         ∧ u.frame = s.frame ∧ (u.lane k).restore = none ∧ (u.lane k).lastRestore.map (·.result) = some .wrongVolume
         ∧ ((s.loc (bay k)).occ ≠ .empty → (u.loc (bay k)).state = some .suspect)))
     ∧ (∀ (v : Volume) (e : SpanEntry), worn ∨ full → l.sent ≠ [] → l.state = .append ∨ l.state = .closing → l.volume = some v →
       s.findSpan v.label = some e → l.restore = none → l.verify = none → l.access.loan = .none →
       (s.lane k.other).calm = true → (∀ w, (s.lane k.other).volume = some w → w.label ≠ v.label) →
       ∃ u : State, exec c s = .next u ∧ u.pending = s.pending ∧ u.frame = s.frame ∧ (u.lane k).state = .unloading
         ∧ (u.lane k).pending = some .unload ∧ (u.lane k).sent = [] ∧ (u.lane k).volume = none
         ∧ (u.findSpan v.label).map (fun y => (y.mirror, y.cause)) = some (if reason = 4 then (.full, .none)
             else (.suspect, if reason = 1 then .media else .isProtected)))
     ∧ (worn ∨ full → l.sent = [] → (∃ o, l.outstanding = some o ∧ o.seek = none) → ∃ u : State, exec c s = .next u
         ∧ u.pending = s.pending ∧ u.frame = s.frame ∧ (u.lane k).state = .fault
         ∧ (u.lane k).code = if reason = 1 then .media else if reason = 3 then .isProtected else .endOfMedia)
     ∧ (kind = 3 → (∃ o, l.outstanding = some o ∧ o.seek = none) → s.changer.state ≠ .faulted →
       let asked := fun (j : Job) => ({ s.toPart with changer := { s.changer with
         queue := s.changer.queue ++ [⟨s.changer.nextEntry, j, false, false⟩], nextEntry := s.changer.nextEntry + 1 } } : Part)
       (l.lending = none → Leaves c s ((asked (.home k)).setLane k { l with outstanding := none }))
       ∧ (∀ d b, l.lending = some d → d.orphan = false → s.jobLabel k.other = some b →
           Leaves c s (((asked (.load k.other (bay k) b)).setLane k { l with
             outstanding := none, lending := some { d with unloaded := true, load := some s.changer.nextEntry } }).setLane k.other
             { s.lane k.other with state := .loading, access := { (s.lane k.other).access with loan := .loading } }))))

/-- A send read whose pool read comes back is answered with its bytes, the next expected offset moves past it and the
partial-read timer starts again; no other block changes (R88, R90, R93).
A partial-read timer that has run out releases the committed item; no other block changes (R93).
The read through offset 32767 of a DATA block is answered with its trailer and sends the block: its entry leaves the send queue
for the tail of the Sent List with sent time now, the copy is SENT, positions used rise by 1, the due count in CLOSING falls by
1, and the lane serves nothing (R90, R91, R117). Where it brings positions used to the limit less 80 in a twin run, both lanes in
APPEND with no open block enter CLOSING, each with its own queue due (R117, R124).
The read through offset 32767 of a LABEL sends it likewise: it is no longer pending, and each lane whose chosen cartridge carries
the volume's label notes that a LABEL was sent on it (R91, R122; that either lane's LABEL counts is the model's reading, log entry
30). -/
def Obligations.SendReadServedOrReleased : Prop :=
  (∀ (s : State) (k : LaneId) (id off : Nat) (t : Txn) (v : Serving) (e : QueueEntry) (q : Nat) (a : OwnAccess)
     (held : Option Nat) (data : List Byte), s.pins.resetLow = false → s.bus.port = some (.own a false) → a.kind = .poolRead k id →
     s.bus.waiting = [⟨id, t, .send k v.id off, held⟩] → (s.lane k).serving = some v → v.item = .data e q →
     v.committed = true → 32 ≤ off → off + 8 * t.beats ≤ 32752 → data.length = 8 * a.beats → a.beats = t.beats →
     s.quiet = true →
     ∃ u : State, exec (.poolReadAnswered true data) s = .next u ∧ u.pending = s.pending
     ∧ u.blocks = (s.setLane k { s.lane k with
         serving := some { v with next := off + 8 * t.beats, timer := some ⟨s.now, 30000000⟩ } }).blocks
     ∧ u.unit.latched = s.unit.latched ∧ u.bus.waiting = [] ∧ u.bus.answered = s.bus.answered ++ [⟨t.tag, true, none, data⟩])
  ∧ (∀ (s : State) (k : LaneId) (v : Serving) (tm : Timer), s.pins.resetLow = false → (s.lane k).serving = some v →
     v.committed = true → v.timer = some tm → tm.start + tm.period ≤ s.now →
     Leaves (.partialReadTimer k) s (s.setLane k { s.lane k with serving := none }))
  ∧ (∀ (s : State) (t : Txn) (k : LaneId) (v : Serving) (e y : QueueEntry) (q : Nat) (rest : List QueueEntry),
     s.pins.resetLow = false → s.classify t = .send k 32752 → t.beats = 2 → s.bus.waiting = [] →
     (s.lane k).serving = some v → v.item = .data e q → v.committed = true → v.next = 32752 → (s.lane k).queue = y :: rest →
     let l := s.lane k
     let b := s.buffer e.buf
     let x := (s.setBuffer e.buf { b with copies := b.copies.set k (some .sent) }).setLane k { l with
       serving := none
       queue := rest
       sent := l.sent ++ [⟨.data e.buf, q, e.rewrites, e.carried, v.headerCheck, v.payloadCheck, s.now⟩]
       volume := l.volume.map (fun n => { n with positions := n.positions + 1 })
       run := { l.run with due := if l.state = .closing then l.run.due - 1 else l.run.due } }
     let calm := fun (j : LaneId) => (s.lane j).restore = none ∧ (s.lane j).verify = none ∧ (s.lane j).access.loan = .none
       ∧ (s.lane j).owedEov = none ∧ (s.asm j).openBlock = none
     Leaves (.sendRead t) s x
     ∧ (∀ n, s.twinRun = true → l.state = .append → (s.lane k.other).state = .append → l.volume = some n →
         l.run.limit ≤ n.positions + 81 → calm k → calm k.other →
         ∃ u : State, exec (.sendRead t) s = .next u ∧ u.pending = s.pending ∧ u.frame = s.frame
         ∧ (u.lane k).state = .closing ∧ (u.lane k).run.warned = true ∧ (u.lane k).run.due = rest.length
         ∧ (u.lane k.other).state = .closing ∧ (u.lane k.other).run.warned = true
         ∧ (u.lane k.other).run.due = (s.lane k.other).queue.length)
     ∧ (x.quiet = true → ∀ u : State, exec (.sendRead t) s = .next u →
         u.bus.answered = s.bus.answered ++ [⟨t.tag, true, none,
           leBytes 4 v.payloadCheck ++ leBytes 4 v.headerCheck ++ [0x4B, 0x44, 0x53, 0x45] ++ zeros 4⟩]))
  ∧ (∀ (s : State) (t : Txn) (k : LaneId) (v : Serving) (n : Volume) (r : Nat),
     s.pins.resetLow = false → s.classify t = .send k 32752 → t.beats = 2 → s.bus.waiting = [] →
     (s.lane k).serving = some v → v.item = .label r → v.committed = true → v.next = 32752 → (s.lane k).volume = some n →
     let l := s.lane k
     let noted := fun (x : Run) => { x with chosen := x.chosen.map (fun c => { c with labelled := c.labelled || c.label == n.label }) }
     Leaves (.sendRead t) s ((s.setLane k { l with
       serving := none
       pending := none
       sent := l.sent ++ [⟨.label, 0, r, false, v.headerCheck, v.payloadCheck, s.now⟩]
       volume := some { n with positions := n.positions + 1 }
       run := noted l.run }).setLane k.other { s.lane k.other with run := noted (s.lane k.other).run }))

/-- The first write of a return, short of its header's end, is taken: it starts a return in progress and is answered OKAY;
no other block changes (R94).
A return write that does not go on from the return in progress is refused with SEQUENCE, and a return that the lane does
not expect is refused with ORDER and counted (R94, R95). So is a return that entry into FAULT cut off, at the write that
goes on from it (R92, R103, R108; that the first such write is the one refused is the model's reading, log entry 37).
A READ completed in a restore's chunk starts the return timer again and is judged by its header, its folds, its trailer and
the rewrite runs: skipped, it only frees the buffer; else the sequences before it are LOST, and damaged, it is counted and sets
gap pending, accepted, it stays in the buffer for the walk (R96, R159, R160).
A READ completed in a verify job's chunk is judged likewise, by the kind its sequence calls for: skipped, it is counted; else
the sequences before it are LOST but for the absent ones, and damaged, it sets all gap flags; an accepted LABEL is done with, a
DATA block stays for the walk, an EOV is checked for its form (R96, R159, R170, R172). That sequence 0 calls for LABEL even where it
is the last verified one is the model's choice (log entry 51).
A READ completed while the job checks identity frees the buffer; the first one that is a label block of sequence 0 with both folds
fitting decides by its two labels (R157). The short returns END, FAULT and UNLOADED stand in OrderDelivered. -/
def Obligations.ReturnWritesTakenOrRefused : Prop :=
  (∀ (s : State) (t : Txn) (k : LaneId), s.pins.resetLow = false → s.classify t = .ret k 0 → s.bus.waiting = [] →
     (enabledBytes t).length < 32 → s.quiet = true →
     ∃ u : State, exec (.returnWrite t) s = .next u ∧ u.pending = s.pending
     ∧ u.blocks = (s.setLane k { s.lane k with
         ret := some ⟨enabledBytes t, Fold.start.addAll (enabledBytes t), Fold.start⟩, cut := none }).blocks
     ∧ u.unit.latched = s.unit.latched ∧ u.bus.waiting = [] ∧ u.bus.answered = s.bus.answered ++ [⟨t.tag, true, none, []⟩])
  ∧ (∀ (s : State) (t : Txn) (k : LaneId) (off : Nat), s.pins.resetLow = false → s.classify t = .ret k off →
     s.bus.waiting = [] → s.quiet = true →
     let refused := fun (r : Reason) (x : Part) =>
       ∃ u : State, exec (.returnWrite t) s = .next u ∧ u.pending = s.pending
       ∧ u.blocks = ({ x with path := { s.path with
           refusals := (s.path.refusals + 1) % 2 ^ 32
           lastRefusal := some ⟨r, .ret k, t.tag, t.addr⟩ } } : Part).blocks
       ∧ u.unit.latched = s.unit.latched
       ∧ u.bus.answered = s.bus.answered ++ [⟨t.tag, false, some r, []⟩]
     let counted := s.setLane k { s.lane k with
       ret := none, cut := none, unexpected := ((s.lane k).unexpected + 1) % 2 ^ 32 }
     (off ≠ 0 → (∀ r, (s.lane k).ret = some r → r.bytes.length ≠ off) →
       ((s.lane k).cut ≠ some off → refused .sequence s.toPart) ∧ ((s.lane k).cut = some off → refused .order counted))
     ∧ (off = 0 → 32 ≤ (enabledBytes t).length →
       (∀ kind, returnKind ((enabledBytes t).take 32) = some kind → (s.lane k).expects ((enabledBytes t).take 32) kind = false) →
       refused .order counted))
  ∧ (∀ (s : State) (t : Txn) (k : LaneId) (block : List Byte) (o : Outstanding) (j : RestoreJob) (v : VolRecord) (a last : Nat),
     s.completesReturn t k block → (s.lane k).outstanding = some o → o.seek ≠ none → (s.lane k).restore = some j →
     j.phase = .reading → j.cursor ≤ j.effLast → (s.lane k).access.chunk = some (a, last) → j.volumes[j.current]? = some v →
     let seq := field block 16 4
     let count := field block 6 1
     let runs := (v.runs.filter (fun r => r.1 ≤ seq ∧ seq ≤ r.2)).length
     let good := field block 4 1 = 2 ∧ foldCheck (block.take 32) = field block 32756 4
       ∧ foldCheck (slice block 32 32720) = field block 32752 4 ∧ slice block 32760 4 = [0x4B, 0x44, 0x53, 0x45]
     let lost : RestoreJob := { j with lost := j.lost + (seq - j.expected), gap := j.gap || decide (j.expected < seq), expected := seq + 1 }
     let judged := fun (job : RestoreJob) (buffer : Option (List Byte)) (walk : Option Walk) =>
       s.setLane k { s.lane k with
         ret := none, outstanding := some { o with timer := some ⟨s.now, 60000000⟩ }
         restore := some job, buffer := buffer, access := { (s.lane k).access with walk := walk } }
     let skipped := last < seq ∨ count < runs ∨ seq < j.expected
     (skipped → Leaves (.returnWrite t) s (judged j none none))
     ∧ (¬ skipped → ¬ (count = runs ∧ good) →
         Leaves (.returnWrite t) s (judged { lost with damaged := j.damaged + 1, gap := true } none none))
     ∧ (¬ skipped → count = runs → good →
         (field block 24 2 = 0 → Leaves (.returnWrite t) s (judged lost none none))
         ∧ (field block 24 2 ≠ 0 → Leaves (.returnWrite t) s (judged lost (some block) (some ⟨0, field block 24 2, none, none⟩)))))
  ∧ (∀ (s : State) (t : Txn) (k : LaneId) (block : List Byte) (o : Outstanding) (j : VerifyJob) (a last : Nat),
     s.completesReturn t k block → (s.lane k).outstanding = some o → o.seek ≠ none → (s.lane k).restore = none →
     (s.lane k).verify = some j → j.phase = .reading → (s.lane k).access.chunk = some (a, last) →
     let seq := field block 16 4
     let count := field block 6 1
     let used := field block 24 2
     let runs := (j.runs.filter (fun r => r.1 ≤ seq ∧ seq ≤ r.2)).length
     let kind := if seq = 0 then 1 else if seq = j.verified ∧ j.eovVerified = true then 3 else 2
     let good := field block 4 1 = kind ∧ foldCheck (block.take 32) = field block 32756 4
       ∧ foldCheck (slice block 32 32720) = field block 32752 4 ∧ slice block 32760 4 = [0x4B, 0x44, 0x53, 0x45]
     let absent := fun (q : Nat) => j.eovVerified && decide (j.absentFrom ≠ 0 ∧ j.absentFrom ≤ q ∧ q < j.verified)
     let n := ((List.range' j.expected (seq - j.expected)).filter (fun q => !absent q)).length
     let all : Vector Bool 8 := Vector.replicate 8 true
     let lost : VerifyJob := { j with lost := j.lost + n, gaps := if n = 0 then j.gaps else all, expected := seq + 1 }
     let judged := fun (job : VerifyJob) (buffer : Option (List Byte)) (walk : Option Walk) =>
       Leaves (.returnWrite t) s (s.setLane k { s.lane k with
         ret := none, outstanding := some { o with timer := some ⟨s.now, 60000000⟩ }
         verify := some job, buffer := buffer, access := { (s.lane k).access with walk := walk } })
     let skipped := last < seq ∨ count < runs ∨ seq < j.expected
     let accepted := { lost with accepted := j.accepted + 1 }
     let damaged := { lost with damaged := j.damaged + 1, gaps := all }
     let streams := (List.range (byteAt block 32).toNat).map (fun i => (byteAt block (33 + 9 * i)).toNat)
     let formed := streams.length ≤ 8 ∧ (∀ x ∈ streams, x < 8) ∧ streams.Nodup
     (skipped → judged { j with skipped := j.skipped + 1 } none none)
     ∧ (¬ skipped → ¬ (count = runs ∧ good) → judged damaged none none)
     ∧ (¬ skipped → count = runs → good →
         (kind = 1 → judged accepted none none)
         ∧ (kind = 2 → used = 0 → judged accepted none none)
         ∧ (kind = 2 → used ≠ 0 → judged accepted (some block) (some ⟨0, used, none, none⟩))
         ∧ (kind = 3 → formed → (∀ i d, s.slot k i ≠ .decoding d) → judged accepted none none)
         ∧ (kind = 3 → ¬ formed → judged damaged none none)))
  ∧ (∀ (s : State) (t : Txn) (k : LaneId) (block : List Byte) (o : Outstanding) (n : Label), s.completesReturn t k block →
     (s.lane k).outstanding = some o → o.seek ≠ none → s.jobLabel k = some n →
     ((∃ j, (s.lane k).restore = some j ∧ j.phase = .identifying)
       ∨ ((∀ r, (s.lane k).restore = some r → r.phase = .waitingVerify)
         ∧ ∃ j, (s.lane k).verify = some j ∧ j.phase = .identifying)) →
     let was := (s.lane k).access.identity
     let deciding := was = none ∧ field block 4 1 = 1 ∧ field block 16 4 = 0 ∧ foldCheck (block.take 32) = field block 32756 4
       ∧ foldCheck (slice block 32 32720) = field block 32752 4
     let judged := fun (identity : Option Bool) => Leaves (.returnWrite t) s (s.setLane k { s.lane k with
       ret := none, outstanding := some { o with timer := some ⟨s.now, 60000000⟩ }, buffer := none
       access := { (s.lane k).access with identity := identity, walk := none } })
     (deciding → judged (some (decide (labelAt block 8 = n ∧ labelAt block 32 = n))))
     ∧ (¬ deciding → judged was))

/-- A completed echo, by the oldest Sent List entry (R99). A stale one is dropped with its pair (R102). One that matches takes
the entry off, verifies its sequence and empties the stale list (R100): of a LABEL it makes the span entry, opens the volume
and, from the second volume on, latches VOLUME CHANGED (R115); of DATA it makes the copy DONE, releasing the buffer with the
last one, and extends the stream ranges (R67, R116); of the EOV it ends the volume FULL, sets continuations, carries the send
queue, makes an UNLOAD pending and latches EOV DONE (R119). One that fails puts the whole Sent List back with its rewrite counts
raised, latching ECHO RETRY, or at a rewrite limit abandons the volume (R101, R121). What the run keeps of capacities is the
model's record for R124. -/
def Obligations.EchoesJudged : Prop :=
  ∀ (s : State) (t : Txn) (k : LaneId) (block : List Byte) (e : SentEntry) (rest : List SentEntry) (v : Volume),
    s.completesReturn t k block → (s.lane k).outstanding = none → (s.lane k).sent = e :: rest →
    (s.lane k).volume = some v →
    let c := Instr.returnWrite t
    let l := { s.lane k with ret := none }
    let pair := (field block 16 4, field block 6 1)
    let fits := pair = (e.seq, e.rewrites) ∧ foldCheck (block.take 32) = e.headerCheck
      ∧ foldCheck (slice block 32 32720) = e.payloadCheck
      ∧ slice block 32752 16 = leBytes 4 e.payloadCheck ++ leBytes 4 e.headerCheck ++ [0x4B, 0x44, 0x53, 0x45] ++ zeros 4
    let verified := { l with sent := rest, volume := some { v with verified := e.seq }, stale := [] }
    let carry := fun (q : List QueueEntry) => q.map (fun y => ({ y with seq := none, rewrites := 0, carried := true } : QueueEntry))
    let left := fun (l : Lane) => { l with
      volume := none, stale := [], state := .unloading, pending := some .unload, queue := carry l.queue
      run := { l.run with chosen := none, warned := false, due := 0, eovList := [], absentFrom := 0
                          capacities := l.run.capacities.filter (fun y => y.1 ≠ l.run.nextVolume) } }
    let back := fun (raise : Nat) => (s.lane k).sent.filterMap (fun y => match y.kind with
      | .data b => some (⟨b, some y.seq, y.rewrites + raise, y.carried⟩ : QueueEntry)
      | _ => none)
    let queued := fun (s : Part) => (s.lane k).sent.foldl (fun (s : Part) y => match y.kind with
      | .data b => s.setCopy k b .queued
      | _ => s) s
    let limit := (∃ y ∈ (s.lane k).sent, 3 ≤ y.rewrites + 1) ∨ 8 ≤ v.rewrites.length
    (pair ∈ l.stale → Leaves c s (s.setLane k { l with stale := l.stale.erase pair }))
    ∧ (pair ∉ l.stale → fits → e.kind = .label → (s.span.length < 32 ∨ s.findSpan v.label ≠ none) →
        l.run.stopAfter = false →
        let x := (({ s.toPart with span := s.span.filter (fun y => y.label ≠ v.label) ++
            [⟨v.label, v.set, v.number, v.twin, .opened, .none, 0, 0, false, v.rewrites, 0, []⟩] } : Part).setVerified v.label false).setLane
          k { verified with state := .append, run := { l.run with nextVolume := l.run.nextVolume + 1 } }
        Leaves c s (if 2 ≤ v.number then x.latch .volumeChanged else x))
    ∧ (∀ b, pair ∉ l.stale → fits → e.kind = .data b → b < s.pool.buffers.length → s.pool.waiters = [] →
        let other := (s.buffer b).copies.get k.other
        let x := (s.modSpan v.label (fun y => { y with
            positions := v.positions, verified := e.seq
            ranges := (s.buffer b).summary.foldl (fun rs n => extendRange e.seq n rs) y.ranges })).setLane k verified
        (other = none ∨ other = some .done →
          Leaves c s { x.setBuffer b Buffer.blank with pool := { (x.setBuffer b Buffer.blank).pool with free := s.pool.free ++ [b] } })
        ∧ (other = some .queued ∨ other = some .sent → Leaves c s (x.setCopy k b .done)))
    ∧ (∀ h, pair ∉ l.stale → fits → e.kind = .eov → l.run.chosen = some h → (s.lane k.other).run.chosen = none →
        Leaves c s ((((s.modSpan v.label (fun y => { y with
            positions := v.positions, verified := e.seq, absentFrom := l.run.absentFrom, eovVerified := true, mirror := .full
            ranges := y.ranges.map (fun r => match l.run.eovList.find? (fun z => z.1 == r.stream) with
              | some z => { r with continuation := some z.2 }
              | none => r) })).setCartridge h.label .full).setLane k (left verified)).latch .eovDone))
    ∧ (pair ∉ l.stale → ¬ fits → ¬ limit → (∀ y ∈ (s.lane k).sent, ∃ b, y.kind = .data b) → l.state = .append →
        l.serving = none → l.pending = none →
        let run := (e.seq, ((e :: rest).getLast?.map (·.seq)).getD 0)
        let x := ((queued s.toPart).modSpan v.label (fun y => { y with runs := y.runs ++ [run] })).setLane k { l with
          sent := [], queue := back 1 ++ l.queue, stale := rest.map (fun y => (y.seq, y.rewrites))
          volume := some { v with rewrites := v.rewrites ++ [run] } }
        Leaves c s (x.latch .echoRetry))
    ∧ (∀ h, pair ∉ l.stale → ¬ fits → limit → l.state = .append → l.serving = none → l.run.chosen = some h →
        (s.lane k.other).run.chosen = none →
        Leaves c s (((((queued s.toPart).setCartridge h.label .suspect).modSpan v.label (fun y => { y with
            positions := v.positions, verified := v.verified, mirror := .suspect, cause := .rewriteLimit })).setLane k
          (left { l with sent := [], queue := back 0 ++ l.queue, owedEov := none })).latch .echoRetry))

/-- An echo timer of the oldest Sent List entry, or a return timer, that has run out puts its lane in FAULT with ECHO TIMEOUT
or RETURN TIMEOUT: what was sent goes back to the front of the send queue, to which nothing else is added, pending and outstanding
orders are dropped (R92, R103, R107). A return in progress is discarded; where it stood is the model's own record (log entry 37).
A timer may run out late (log entry 2). -/
def Obligations.LaneTimersFault : Prop :=
  ∀ (s : State) (k : LaneId), s.pins.resetLow = false → s.quiet = true → (s.lane k).state ≠ .fault →
    let faulted := fun (c : Instr) (code : LaneCode) =>
      ∃ u : State, exec c s = .next u ∧ u.pending = s.pending ∧ u.frame = s.frame
      ∧ (u.lane k).state = .fault ∧ (u.lane k).code = code ∧ (u.lane k).pending = none
      ∧ (u.lane k).outstanding = none ∧ (u.lane k).sent = [] ∧ (u.lane k).stale = []
      ∧ (u.lane k).ret = none ∧ (u.lane k).cut = (s.lane k).ret.map (·.bytes.length)
      ∧ (u.lane k).queue = (s.lane k).sent.filterMap (fun e => match e.kind with
          | .data b => some ⟨b, some e.seq, e.rewrites, e.carried⟩
          | _ => none) ++ (s.lane k).queue
    (∀ e rest, (s.lane k).sent = e :: rest → e.sentAt + 60000000 ≤ s.now → faulted (.echoTimer k) .echoTimeout)
    ∧ (∀ o tm, (s.lane k).outstanding = some o → o.timer = some tm → tm.start + tm.period ≤ s.now →
        faulted (.returnTimer k) .returnTimeout)

/-! ## Own accesses -/

/-- An own write of restore output or of a pool block that memory answers OKAY leaves every block as it was, and frees the
port: of two lines that wait the one not served last goes, else the one that waits, else none (R37, R38).
The last access of an update of a Status Block section is answered: the update is over, or, with the section marked stale, the
section is written again; no block changes (R185).
Whatever command changes what an owner shows by its rule (R33, R60, R65, R110, R151, R166, R177, R178) has the owner's section
written: with no update of it unanswered one is issued, its contents as they stand between head and tail counts raised by 1;
with one unanswered the section is marked stale, or, at RESET PART, written as well (R185). How an update is cut into bursts is
the model's choice (log entry 8). -/
def Obligations.OwnAccessesAnswered : Prop :=
  let entry := fun (s : State) (x : Section) => s.status.find? (fun t => t.sec == x)
  let issued := fun (t : State) (x : Section) (n : Nat) =>
    entry t x = some ⟨x, (n + 1) % 2 ^ 32, true, false⟩
    ∧ ∃ before after, t.ownIssued = before
      ++ writeBursts (fun last => .status x last) (0x1000000 * t.pins.dab.toNat + x.place.1)
          (leBytes 4 ((n + 1) % 2 ^ 32) ++ t.sectionBody x ++ leBytes 4 ((n + 1) % 2 ^ 32))
      ++ after
  (∀ (s : State) (a : OwnAccess) (k : LaneId) (n m : Nat) (data : List Byte), s.pins.resetLow = false →
     s.bus.port = some (.own a false) → (a.kind = .poolWrite k n m ∨ a.kind = .restoreOut k n) → s.quiet = true →
     s.touched = [] →
     ∃ u : State, exec (.ownAccessAnswered true data) s = .next u ∧ u.pending = s.pending ∧ u.blocks = s.blocks
     ∧ (s.noConditionRead → u.unit.latched = s.unit.latched)
     ∧ (s.bus.clientLine = [] → s.bus.ownLine = [] → u.bus.port = none)
     ∧ (∀ j t rest, s.bus.clientLine = (j, t) :: rest → s.bus.ownLine = [] ∨ s.bus.lastServed = .own →
         u.bus.port = some (.client j t) ∧ u.bus.clientLine = rest ∧ u.bus.ownLine = s.bus.ownLine ∧ u.bus.lastServed = .client)
     ∧ (∀ b rest, s.bus.ownLine = b :: rest → s.bus.clientLine = [] ∨ s.bus.lastServed = .client →
         u.bus.port = some (.own b false) ∧ u.bus.ownLine = rest ∧ u.bus.clientLine = s.bus.clientLine
         ∧ u.bus.lastServed = .own))
  ∧ (∀ (s : State) (a : OwnAccess) (x : Section) (n : Nat) (stale : Bool), s.pins.resetLow = false →
     s.bus.port = some (.own a false) → a.kind = .status x true → entry s x = some ⟨x, n, true, stale⟩ → s.touched = [] →
     ∃ u : State, exec (.statusUpdateAnswered true) s = .next u ∧ u.pending = s.pending ∧ u.blocks = s.blocks
     ∧ (stale = false → entry u x = some ⟨x, n, false, false⟩) ∧ (stale = true → issued u x n))
  ∧ (∀ (s t : State) (c : Instr) (x : Section) (n : Nat) (unanswered stale : Bool), s.pins.resetLow = false →
     c ≠ .resetnLow → (∀ d a l, c ≠ .resetnHigh d a l) → exec c s = .next t → entry s x = some ⟨x, n, unanswered, stale⟩ →
     (match x with
       | .stream i => (s.stream i).state ≠ (t.stream i).state
       | .lane k => (s.lane k).state ≠ (t.lane k).state ∨ (s.lane k).code ≠ (t.lane k).code
           ∨ (s.lane k).queue.length ≠ (t.lane k).queue.length ∨ (s.lane k).sent.length ≠ (t.lane k).sent.length
           ∨ (s.lane k).unexpected ≠ (t.lane k).unexpected
       | .pool => s.pool.geometry ≠ t.pool.geometry ∨ s.pool.free.length ≠ t.pool.free.length
       | .changer => changerBody s.toPart ≠ changerBody t.toPart
       | .map => s.library ≠ t.library
       | .restore k => (s.lane k).restore.map (fun j => (j.phase, j.done, j.failed))
           ≠ (t.lane k).restore.map (fun j => (j.phase, j.done, j.failed))
       | .verify k => (s.lane k).verify.map (fun j => (j.phase, j.chunks, j.done, j.failed, j.partials))
           ≠ (t.lane k).verify.map (fun j => (j.phase, j.chunks, j.done, j.failed, j.partials))
       | .path => s.path.refusals ≠ t.path.refusals ∨ s.path.lastRefusal ≠ t.path.lastRefusal
       | .unit => s.unit.slot.view ≠ t.unit.slot.view) →
     (unanswered = false → issued t x n)
     ∧ (unanswered = true → entry t x = some ⟨x, n, true, true⟩ ∨ issued t x n))

/-! ## The Directive Unit -/

/-- Directive writes by R178 to R180. READY: code 0 does nothing, 0xC9 gives SEQUENCE, a code of no directive gives UNKNOWN
CODE, a guarded code waits for its confirm, and any other code of the table has the Parameter Block read by one own access of 8
beats, the slot BUSY. PENDING: 0xC9 confirms, and the block is read likewise, RESET PART being carried out at once (R28, R187);
where Parameter Block writes made in PENDING wait for memory at the confirm, the read is made at the event at which memory answers
the last of them, and not before; any other code gives SEQUENCE with that code as detail. Each outcome is written by an own
access. BUSY: the write is lost, the LOST flag stands and DIRECTIVE LOST is latched, and where the outcome was already
on its way without the flag a second Outcome Word write follows with it.
That the row DIRECTIVE_LOST carries any directive write, a guarded code in READY too, is the model's choice (log entry 13); the
answer that ends the slot is the last write's (log entry 17). That a write made in PENDING is one accepted in PENDING, and that the
read waits for it, is the model's choice (log entry 55). -/
def Obligations.DirectiveWritesTaken : Prop :=
  ∀ s : State, s.pins.resetLow = false →
    let answered := fun (code : Nat) (r : Result) (d : Nat) =>
      (s.composed code r d).pushOwn [(s.composed code r d).outcomeWrite false]
    let made := fun (w : Waiting) =>
      w.wait = .line ∧ s.unit.pendingFrom ≤ w.id ∧ s.rangeHit w.txn = .directive ∧ w.txn.write = true
      ∧ w.txn.enablesIn (s.offsetIn w.txn) 0x40 0x80
    (s.unit.slot = .ready →
      Leaves .emptyCode s s.toPart
      ∧ Leaves .confirm s (answered 0xC9 .sequence 0)
      ∧ (∀ code : Byte, code.toNat ∉ directiveTable → code ≠ 0 → code ≠ 0xC9 →
          Leaves (.unknownCode code) s (answered code.toNat .unknownCode 0))
      ∧ (∀ code : Byte, code.toNat ∈ guardedTable → Leaves (.directiveLost code) s
          { s.toPart with unit := { s.unit with slot := .pending code.toNat, pendingFrom := s.bus.nextId } })
      ∧ (∀ code : Byte, code.toNat ∈ directiveTable → code.toNat ∉ guardedTable → Leaves (.directiveLost code) s
          ((s.setDirSlot (.busy code.toNat false .parameter)).pushOwn [readBurst .parameter (s.areaBase + 0x40) 8])))
    ∧ (∀ p, s.unit.slot = .pending p →
      Leaves .emptyCode s (answered p .sequence 0)
      ∧ (p ≠ 0x7F → (∀ w ∈ s.bus.waiting, ¬ made w) → Leaves .confirm s
          ((s.setDirSlot (.busy p false .parameter)).pushOwn [readBurst .parameter (s.areaBase + 0x40) 8]))
      ∧ (p ≠ 0x7F → (∃ w ∈ s.bus.waiting, made w) → Leaves .confirm s (s.setDirSlot (.busy p false .writes)))
      ∧ (p = 0x7F → exec .confirm s = exec .resetPart s)
      ∧ (∀ code : Byte, code ≠ 0xC9 → Leaves (.unknownCode code) s (answered p .sequence code.toNat)))
    ∧ (∀ (code : Byte) (c : Nat) (lost : Bool) (st : Stage), s.unit.slot = .busy c lost st →
      let again := st = .outcome ∧ lost = false
      exec .emptyCode s = exec (.directiveLost 0) s ∧ exec .confirm s = exec (.directiveLost 0xC9) s
      ∧ exec (.unknownCode code) s = exec (.directiveLost code) s
      ∧ ∃ t : State, exec (.directiveLost code) s = .next t ∧ t.pending = s.pending
      ∧ t.blocks = ({ s.toPart with unit := { s.unit with
          slot := .busy c true (if again then .second else st)
          outcome := if again then { s.unit.outcome with lost := true } else s.unit.outcome } } : Part).blocks
      ∧ t.hasIssued s.ownIssued (if again then [t.outcomeWrite true] else [])
      ∧ ((∀ w ∈ s.bus.waiting, w.wait ≠ .cond) → t.unit.latched = s.unit.latched ||| 2#64))
    ∧ (∀ (c : Nat) (lost ok : Bool) (id : Nat) (t : Txn) (data : List Byte), s.unit.slot = .busy c lost .writes →
      s.bus.port = some (.client id t) → s.quiet = true →
      let left := ∃ w ∈ s.bus.waiting, w.id ≠ id ∧ made w
      ∃ (u : State) (l : Bool), exec (.passedThroughAnswer ok data) s = .next u ∧ u.pending = s.pending
      ∧ (lost = true → l = true)
      ∧ (left → u.unit.slot = .busy c l .writes ∧ u.hasIssued s.ownIssued [])
      ∧ ((∃ w ∈ s.bus.waiting, w.id = id) → ¬ left → u.unit.slot = .busy c l .parameter
          ∧ u.hasIssued s.ownIssued [readBurst .parameter (s.areaBase + 0x40) 8]))

/-- Memory's answer to the last Outcome Word write returns the slot to READY and latches DIRECTIVE DONE; at the answer to the
first one the windows, the hold limit, the idle time and the pool range that directives have set come into force; no other
block changes (R35, R36, R62, R180, R182).
That the settings come into force at the answer to the first write, OKAY or FAULT, is the model's choice (log entry 13). With a
second write the slot waits for that one (log entry 17). -/
def Obligations.OutcomeAnsweredReadies : Prop :=
  ∀ (s : State) (a : OwnAccess) (c : Nat) (lost second ok : Bool), s.pins.resetLow = false →
    s.bus.port = some (.own a false) → a.kind = .outcome second → (∀ w ∈ s.bus.waiting, w.wait ≠ .cond) →
    let now : Part := { s.toPart with force := ⟨s.path.windows, s.path.holdLimit, s.path.idleTime, s.pool.geometry⟩ }
    (s.unit.slot = .busy c lost (if second then .second else .outcome) →
      ∃ t : State, exec (.outcomeWriteAnswered ok) s = .next t ∧ t.pending = s.pending
      ∧ t.blocks = (now.setDirSlot .ready).blocks ∧ t.unit.latched = s.unit.latched ||| 1#64)
    ∧ (second = false → s.unit.slot = .busy c lost .second →
      ∃ t : State, exec (.outcomeWriteAnswered ok) s = .next t ∧ t.pending = s.pending
      ∧ t.blocks = now.blocks ∧ t.unit.latched = s.unit.latched)

/-- A Parameter Block that spells a directive is judged by the same judgement as that directive given as a command
(R180, R190).
The row of a directive stands for its writes and its parameter read in one event (log entry 13). -/
def Obligations.BlockJudgedAsCommand : Prop :=
  ∀ (code : Nat) (b : List Byte) (c : Instr), readParameters code b = some c →
    ∃ f : Part → Judged, (∀ s : State, exec c s = event s (fun p => p.directive code f))
    ∧ (∀ p : Part, p.carryOut code b = Part.conclude p (chooseAgain p (f p) (code == 0x54)) (f p))

/-- The Parameter Block read answered carries out the directive of a BUSY slot: SET TIMING takes its two counts from bytes
0-3, low byte first, clamped to 1 to 255. A FAULT on that read gives PARAMETER, for every directive, and nothing else; in both
cases the Outcome Word is written by an own access (R36, R180, R190). Where the writes unanswered are all held for that read, they
join the client line in the order they arrived, each with its hold timer as it runs (R22, R28). -/
def Obligations.ParameterReadCarriesOut : Prop :=
  ∀ (s : State) (a : OwnAccess) (code : Nat) (data : List Byte), s.pins.resetLow = false →
    s.bus.port = some (.own a false) → a.kind = .parameter → s.unit.slot = .busy code false .parameter →
    let answered := fun (x : Part) => x.freePort.pushOwn [x.outcomeWrite false]
    Leaves (.parameterReadAnswered false data) s (answered (s.composed code .parameter 0))
    ∧ (code = 0x02 → data.length = 64 →
        let hold := (byteAt data 0).toNat + 256 * (byteAt data 1).toNat
        let idle := (byteAt data 2).toNat + 256 * (byteAt data 3).toNat
        Leaves (.parameterReadAnswered true data) s
          (answered (({ s.toPart with path := { s.path with
              holdLimit := max 1 (min 255 hold), idleTime := max 1 (min 255 idle) } } : Part).composed 0x02 .accepted
            (if 1 ≤ hold ∧ hold ≤ 255 ∧ 1 ≤ idle ∧ idle ≤ 255 then 0 else 1))))
    ∧ (∀ ok : Bool, ok = false ∨ code = 0x02 → (∀ w ∈ s.bus.waiting, w.wait = .param) → s.quiet = true →
        ∃ u : State, exec (.parameterReadAnswered ok data) s = .next u
        ∧ u.bus.waiting = s.bus.waiting.map (fun w => { w with wait := .line })
        ∧ (match u.bus.port with
            | some (.client j t) => [(j, t)]
            | _ => []) ++ u.bus.clientLine = s.bus.clientLine ++ s.bus.waiting.map (fun w => (w.id, w.txn)))

/-- A lane number that names no lane of this part gives PARAMETER for every directive that takes one, and changes nothing
else (R40, R180 and the checks of R42, R104 to R106, R113, R117, R120, R153, R164, R168); on a part strapped for one lane SET TWIN,
on or off, and CLEAR ERRORS that name lane 1 do too (R40, R123, R186).
A stream number of 8 or more gives PARAMETER for every directive that takes one and changes nothing (R42 to R46, R153). -/
def Obligations.AbsentOperandIsParameter : Prop :=
  (∀ (s : State) (b : Byte), s.laneArg b = none →
     (s.takes 0x20 → ∀ i n, Judges (.openStream i b n) s 0x20 .parameter 0 s.toPart)
     ∧ (s.takes 0x30 → ∀ n w, Judges (.append b n w) s 0x30 .parameter 0 s.toPart)
     ∧ (s.takes 0x31 → Judges (.closeVolume b) s 0x31 .parameter 0 s.toPart)
     ∧ (s.takes 0x32 → Judges (.endRun b) s 0x32 .parameter 0 s.toPart)
     ∧ (s.takes 0x40 → Judges (.holdLane b) s 0x40 .parameter 0 s.toPart)
     ∧ (s.takes 0x41 → Judges (.releaseLane b) s 0x41 .parameter 0 s.toPart)
     ∧ (s.takes 0x42 → Judges (.cancelLane b) s 0x42 .parameter 0 s.toPart)
     ∧ (s.takes 0x43 → Judges (.unload b) s 0x43 .parameter 0 s.toPart)
     ∧ (s.takes 0x60 → ∀ i w p n m x y, Judges (.restore b i w p n m x y) s 0x60 .parameter 0 s.toPart)
     ∧ (s.takes 0x61 → ∀ x y, Judges (.restoreContinue b x y) s 0x61 .parameter 0 s.toPart)
     ∧ (s.takes 0x62 → ∀ l, Judges (.verifyVolume b l) s 0x62 .parameter 0 s.toPart))
  ∧ (∀ (s : State) (b : Byte), 8 ≤ b.toNat →
     (s.takes 0x20 → ∀ k n, Judges (.openStream b k n) s 0x20 .parameter 0 s.toPart)
     ∧ (s.takes 0x21 → ∀ n, Judges (.openRecord b n) s 0x21 .parameter 0 s.toPart)
     ∧ (s.takes 0x22 → Judges (.endRecord b) s 0x22 .parameter 0 s.toPart)
     ∧ (s.takes 0x23 → Judges (.flushStream b) s 0x23 .parameter 0 s.toPart)
     ∧ (s.takes 0x24 → Judges (.closeStream b) s 0x24 .parameter 0 s.toPart)
     ∧ (s.takes 0x60 → ∀ k w p n m x y, Judges (.restore k b w p n m x y) s 0x60 .parameter 0 s.toPart))
  ∧ (∀ s : State, s.pins.lnc = false →
     (s.takes 0x33 → ∀ on, Judges (.setTwin on 1) s 0x33 .parameter 0 s.toPart)
     ∧ (s.takes 0x78 → Judges (.clearErrors 1) s 0x78 .parameter 0 s.toPart))

/-- RESET PART resets every block as R33, R39, R59, R69, R109, R129, R150 and R187 say and gives ACCEPTED with the count 1:
settings and windows at their reset values and in force, the refusal record empty, lanes at rest by their bays, OPEN mirrors and
OPEN cartridges of the map INTERRUPTED, map labels and Hold List kept; no own access is left but the one on the port, and the Outcome Word is the first
issued.
The primary lane and the kept counter are the model's choices (log entries 5, 6). That an OPEN which an UNKNOWN location record
only remembers becomes INTERRUPTED too is the model's choice as well, and no rule's (log entry 46). -/
def Obligations.ResetPartResets : Prop :=
  ∀ s : State, s.takes 0x7F →
    ∃ t : State, exec .resetPart s = .next t ∧ t.pending = s.pending ∧ t.pins = s.pins
    ∧ t.path = ⟨Vector.replicate 12 none, 10, 20, 0, none⟩ ∧ t.force = ⟨Vector.replicate 12 none, 10, 20, none⟩
    ∧ t.hasIssued (match s.bus.port with
        | some (.own a _) => [a]
        | _ => []) [t.outcomeWrite false]
    ∧ t.streams = State.reset.streams ∧ t.assembly = State.reset.assembly
    ∧ t.pool.geometry = none ∧ t.pool.buffers = [] ∧ t.pool.free = [] ∧ t.pool.waiters = []
    ∧ t.twin = ⟨false, .l0⟩
    ∧ (∀ k, t.lane k = { State.reset.lane k with
        state := if s.present k = true ∧ (s.loc (bay k)).occ = .occupied then .idle else .empty
        nextServing := (s.lane k).nextServing })
    ∧ t.span = s.span.map (fun e => if e.mirror = .opened then { e with mirror := .interrupted } else e)
    ∧ (∀ p, t.loc p = if (s.loc p).state = some .opened then { s.loc p with state := some .interrupted } else s.loc p)
    ∧ t.library.holds = s.library.holds ∧ t.library.openL = s.library.openL ∧ t.library.openR = s.library.openR
    ∧ t.unit.slot = .busy 0x7F false .outcome ∧ t.unit.outcome = ⟨0x7F, .accepted, false, 0, 1⟩
    ∧ t.unit.mask = 0 ∧ t.unit.pulseMode = s.pins.atm
    ∧ (s.changer.out = none → t.changer.state = .offline ∧ t.changer.queue = []
        ∧ t.changer.out = some ⟨.query, none, none, false⟩ ∧ t.changer.sent = s.changer.sent ++ [[0xA7, 0x23, 0x00, 0xDD]])

/-! ## Settings: windows, timing, ATTN, pool, twin, Hold List -/

/-- SET WINDOW with a size its role may have, an aligned base, a resting owner and no shared address sets the window; with
size 0 it unsets it; no other block changes (R34, R35).
SET WINDOW refused in the order of R35: PARAMETER for a role, size, base or lane it may not have, then STATE for an active
owner, then OVERLAP; nothing changes but the outcome.
The window comes into force at the answer to the outcome's write (OutcomeAnsweredReadies, log entry 13). -/
def Obligations.SetWindowSetsOrRefuses : Prop :=
  (∀ (s : State) (b : Byte) (role : Fin 12) (base size : BitVec 32), s.takes 0x01 → b.toNat = role.val →
     ((role.val = 9 ∨ role.val = 11) → s.pins.lnc = true) → s.roleActive role = false →
     (size.toNat ≠ 0 → allowedSize role size.toNat = true ∧ base.toNat % size.toNat = 0
       ∧ ∀ r ∈ s.areaRange :: s.windowRanges (some role) ++ s.poolRange ++ s.restoreAreas,
           overlaps base.toNat size.toNat r.1 r.2 = false) →
     Judges (.setWindow b base size) s 0x01 .accepted 0 { s.toPart with path := { s.path with
       windows := s.path.windows.set role (if size.toNat = 0 then none else some ⟨base.toNat, size.toNat⟩) } })
  ∧ (∀ (s : State) (b : Byte) (base size : BitVec 32), s.takes 0x01 →
     let parameter := 12 ≤ b.toNat ∨ ((b.toNat = 9 ∨ b.toNat = 11) ∧ s.pins.lnc = false)
       ∨ (size.toNat ≠ 0 ∧ ∃ h : b.toNat < 12, allowedSize ⟨b.toNat, h⟩ size.toNat = false ∨ base.toNat % size.toNat ≠ 0)
     (parameter → Judges (.setWindow b base size) s 0x01 .parameter 0 s.toPart)
     ∧ (∀ role : Fin 12, ¬ parameter → b.toNat = role.val → s.roleActive role = true →
         Judges (.setWindow b base size) s 0x01 .state 0 s.toPart)
     ∧ (∀ role : Fin 12, ¬ parameter → b.toNat = role.val → s.roleActive role = false → size.toNat ≠ 0 →
         (∃ r ∈ s.areaRange :: s.windowRanges (some role) ++ s.poolRange ++ s.restoreAreas,
           overlaps base.toNat size.toNat r.1 r.2 = true) →
         Judges (.setWindow b base size) s 0x01 .overlap 0 s.toPart))

/-- SET TIMING sets both counts, clamped to 1 to 255, with detail 1 when it clamped; no other block changes (R36).
They come into force at the answer to the outcome's write (OutcomeAnsweredReadies, log entry 13). -/
def Obligations.SetTimingClamps : Prop :=
  ∀ (s : State) (hold idle : BitVec 16), s.takes 0x02 →
    Judges (.setTiming hold idle) s 0x02 .accepted
      (if 1 ≤ hold.toNat ∧ hold.toNat ≤ 255 ∧ 1 ≤ idle.toNat ∧ idle.toNat ≤ 255 then 0 else 1)
      { s.toPart with path := { s.path with
        holdLimit := max 1 (min 255 hold.toNat), idleTime := max 1 (min 255 idle.toNat) } }

/-- SET ATTN puts level mode (0) or pulse mode (1) in force and refuses any other value with PARAMETER (R184).
The end of a pulse of 1 µs releases ATTN and changes no block (R183). -/
def Obligations.AttnModeAndPulse : Prop :=
  (∀ (s : State) (mode : Byte), s.takes 0x03 →
     (mode.toNat ≤ 1 → Judges (.setAttn mode) s 0x03 .accepted 0
       { s.toPart with unit := { s.unit with pulseMode := mode.toNat == 1 } })
     ∧ (1 < mode.toNat → Judges (.setAttn mode) s 0x03 .parameter 0 s.toPart))
  ∧ (∀ (s : State) (since : Nat), s.pins.resetLow = false → s.unit.pulseMode = true → s.unit.attn = .pulse since →
     since + 1 ≤ s.now →
     ∃ t : State, exec .attnPulseEnd s = .next t ∧ t.pending = s.pending ∧ t.blocks = s.blocks ∧ t.unit.attn = .released)

/-- SET POOL with a 32 KiB-aligned base and 8 to 64 buffers, everything at rest and no shared address, sets the pool with
every buffer FREE in order of index; count 0 unsets it; no other block changes (R61, R62). Refused in the order of R62:
PARAMETER for a base, a count or a range it may not have, then STATE while a stream, a lane or a buffer works, then OVERLAP;
nothing changes but the outcome.
SET TWIN judged in the order of R123: PARAMETER for a primary lane that is not there, off as on, and for on with one lane alone
(R40), STATE while a lane works or a stream is open, otherwise the twin setting takes the values; after both resets twin mode is
off.
The directive's row stands for its writes and its parameter read, and the pool range comes into force at the answer to the
outcome's write (log entry 13). -/
def Obligations.PoolAndTwinSet : Prop :=
  (∀ (s : State) (base : BitVec 32) (count : Byte), s.takes 0x10 → base.toNat % 32768 = 0 →
     (count.toNat = 0 ∨ (8 ≤ count.toNat ∧ count.toNat ≤ 64 ∧ base.toNat + 32768 * count.toNat ≤ 2 ^ 32)) →
     (∀ i, (s.stream i).state = .closed) →
     (∀ k, (s.lane k).state ≠ .labelling ∧ (s.lane k).state ≠ .append ∧ (s.lane k).state ≠ .closing) →
     (∀ x ∈ s.pool.buffers, x.state = .free) →
     (∀ r ∈ s.areaRange :: s.windowRanges none ++ s.restoreAreas, overlaps base.toNat (32768 * count.toNat) r.1 r.2 = false) →
     Judges (.setPool base count) s 0x10 .accepted 0 { s.toPart with pool :=
       if count.toNat = 0 then { geometry := none, buffers := [], free := [], waiters := [], nextBlk := s.pool.nextBlk }
       else { geometry := some ⟨base.toNat, count.toNat⟩, buffers := List.replicate count.toNat Buffer.blank
              free := List.range count.toNat, waiters := [], nextBlk := s.pool.nextBlk } })
  ∧ (∀ (s : State) (base : BitVec 32) (count : Byte), s.takes 0x10 →
     let c := Instr.setPool base count
     let size := 32768 * count.toNat
     let parameter := base.toNat % 32768 ≠ 0
       ∨ (count.toNat ≠ 0 ∧ (count.toNat < 8 ∨ 64 < count.toNat ∨ 2 ^ 32 < base.toNat + size))
     let state := (∃ i, (s.stream i).state ≠ .closed)
       ∨ (∃ k, (s.lane k).state = .labelling ∨ (s.lane k).state = .append ∨ (s.lane k).state = .closing)
       ∨ ∃ x ∈ s.pool.buffers, x.state ≠ .free
     let overlap := ∃ r ∈ s.areaRange :: s.windowRanges none ++ s.restoreAreas, overlaps base.toNat size r.1 r.2 = true
     (parameter → Judges c s 0x10 .parameter 0 s.toPart)
     ∧ (¬ parameter → state → Judges c s 0x10 .state 0 s.toPart)
     ∧ (¬ parameter → ¬ state → overlap → Judges c s 0x10 .overlap 0 s.toPart))
  ∧ (∀ (s : State) (on primary : Byte), s.takes 0x33 → on.toNat ≤ 1 → (on = 0 → primary.toNat ≤ 1) →
     let c := Instr.setTwin on primary
     let parameter := (on = 1 ∧ (1 < primary.toNat ∨ s.pins.lnc = false)) ∨ (primary = 1 ∧ s.pins.lnc = false)
     let state := (∃ k, (s.lane k).run.isOpen = true ∨ ((s.lane k).state ≠ .empty ∧ (s.lane k).state ≠ .idle))
       ∨ ∃ i, (s.stream i).state ≠ .closed
     (parameter → Judges c s 0x33 .parameter 0 s.toPart)
     ∧ (¬ parameter → state → Judges c s 0x33 .state 0 s.toPart)
     ∧ (¬ parameter → ¬ state → Judges c s 0x33 .accepted 0
         { s.toPart with twin := ⟨on == 1, if primary = 0 then .l0 else .l1⟩ }))
  ∧ State.reset.twin.on = false
  ∧ (∀ s : State, s.takes 0x7F → ∃ t : State, exec .resetPart s = .next t ∧ t.twin.on = false)

/-- SET HOLD adds a printable label to the Hold List or removes it: a label already there is accepted with no change, the
33rd is FULL, one not there is NOT FOUND; CLEAR HOLDS empties the list and tells how many it held (R136, R137). -/
def Obligations.HoldListDirectives : Prop :=
  ∀ (s : State) (l : Label), (labelBytes l).all printable = true →
    let holds := fun (h : List Label) => ({ s.toPart with library := { s.library with holds := h } } : Part)
    (s.takes 0x52 →
      (l ∉ s.library.holds → s.library.holds.length < 32 → Judges (.setHold l 1) s 0x52 .accepted 0 (holds (s.library.holds ++ [l])))
      ∧ (l ∉ s.library.holds → 32 ≤ s.library.holds.length → Judges (.setHold l 1) s 0x52 .full 0 s.toPart)
      ∧ (l ∈ s.library.holds → Judges (.setHold l 1) s 0x52 .accepted 0 s.toPart
          ∧ Judges (.setHold l 0) s 0x52 .accepted 0 (holds (s.library.holds.filter (· ≠ l))))
      ∧ (l ∉ s.library.holds → Judges (.setHold l 0) s 0x52 .notFound 0 s.toPart))
    ∧ (s.takes 0x53 → Judges .clearHolds s 0x53 .accepted s.library.holds.length (holds []))

/-! ## Stream directives -/

/-- OPEN STREAM binds a CLOSED stream with a set intake window to its lane and puts it in IDLE with its first record number;
OPEN RECORD opens the next record of an IDLE stream, numbers it in the detail and starts its packing state; both name STATE
where the stream does not allow it, OPEN RECORD also LIMIT and PARAMETER (R42, R43). -/
def Obligations.OpenStreamAndRecord : Prop :=
  ∀ (s : State) (i : Fin 8) (k : LaneId) (first : BitVec 32) (length : BitVec 64), s.present k = true →
    let b := BitVec.ofNat 8 i.val
    let x := s.stream i
    (s.takes 0x20 → (s.twin.on = false ∨ k = s.twin.primary) →
      (x.state = .closed → s.intakeSize i ≠ 0 → s.pool.geometry ≠ none →
        Judges (.openStream b (BitVec.ofNat 8 k.num) first) s 0x20 .accepted 0
          (s.setStream i { x with state := .idle, lane := some k, nextRecord := .num first.toNat }))
      ∧ (x.state ≠ .closed ∨ s.intakeSize i = 0 ∨ s.pool.geometry = none →
        Judges (.openStream b (BitVec.ofNat 8 k.num) first) s 0x20 .state 0 s.toPart))
    ∧ (s.takes 0x21 → length.toNat ≤ 2 ^ 36 - 1 →
      (∀ n, x.state = .idle → x.nextRecord = .num n →
        Judges (.openRecord b length) s 0x21 .accepted (n % 65536)
          (s.setStream i { x with
            state := .record, current := some n, nextRecord := if n = 2 ^ 32 - 1 then .exhausted else .num (n + 1)
            recTaken := 0, placed := 0, nextIndex := .num 0, declared := length.toNat, pack := Packing.empty }))
      ∧ (x.state ≠ .idle → Judges (.openRecord b length) s 0x21 .state 0 s.toPart)
      ∧ (x.state = .idle → x.nextRecord = .exhausted → Judges (.openRecord b length) s 0x21 .limit 0 s.toPart))
    ∧ (s.takes 0x21 → 2 ^ 36 - 1 < length.toNat → Judges (.openRecord b length) s 0x21 .parameter 0 s.toPart)

/-- END RECORD puts a stream in ENDING while its intake holds bytes, FLUSH STREAM closes the OPEN segment and flags it, CLOSE
STREAM closes an IDLE or FAULTED stream; each names STATE in any other state, and changes no other block (R44 to R46). -/
def Obligations.StreamDirectives : Prop :=
  ∀ (s : State) (i : Fin 8), s.bus.waiting = [] →
    let b := BitVec.ofNat 8 i.val
    let x := s.stream i
    (s.takes 0x22 →
      (x.state = .record → x.intake ≠ [] →
        Judges (.endRecord b) s 0x22 .accepted 0 (s.setStream i { x with state := .ending }))
      ∧ (x.state ≠ .record → Judges (.endRecord b) s 0x22 .state 0 s.toPart))
    ∧ (s.takes 0x23 →
      (∀ g k, x.state ≠ .closed → x.state ≠ .faulted → x.seg = .filling g → x.lane = some k →
        Judges (.flushStream b) s 0x23 .accepted 0
          ((s.setStream i { x with seg := .closed g, idle := none, flush := true }).setAsm k
            { s.asm k with offers := (s.asm k).offers ++ [i] }))
      ∧ (x.state = .closed ∨ x.state = .faulted → Judges (.flushStream b) s 0x23 .state 0 s.toPart))
    ∧ (s.takes 0x24 →
      (x.state = .idle ∨ x.state = .faulted →
        Judges (.closeStream b) s 0x24 .accepted 0 (s.setStream i (State.reset.stream i)))
      ∧ (x.state ≠ .idle → x.state ≠ .faulted → Judges (.closeStream b) s 0x24 .state 0 s.toPart))

/-! ## Runs and lanes -/

/-- APPEND on a lane at rest whose bay holds the only cartridge that may be chosen opens the run, marks the cartridge OPEN and
puts the lane in LABELLING with a LABEL pending; no other block changes (R113, R114, R115).
With twin mode on, APPEND on the primary lane opens both runs, PRIMARY and TWIN, each on the cartridge of its own bay, and both
limits are the smaller of the two capacities (R113, R124).
APPEND refused in the order of R113: PARAMETER, then STATE, then NOT FOUND; nothing changes but the outcome. -/
def Obligations.AppendOpensRunOrRefuses : Prop :=
  (∀ (s : State) (k : LaneId) (set : BitVec 16) (l : Label), s.takes 0x30 → s.present k = true → set ≠ 0 →
     s.twin.on = false → s.pool.geometry ≠ none → (s.lane k).run.isOpen = false →
     ((s.lane k).state = .empty ∨ (s.lane k).state = .idle) → (s.lane k.other).run.chosen = none →
     (s.loc (bay k)).occ = .occupied → (s.loc (bay k)).state = some .scratch → (s.loc (bay k)).label = some l →
     validLabel l = true → l ∉ s.library.holds → (∀ p, p ≠ bay k → s.isCandidate (s.loc p) = false) →
     let cap := classCapacity (classOf l)
     let home := (s.loc (bay k)).home
     Judges (.append (BitVec.ofNat 8 k.num) 0 set) s 0x30 .accepted 0
       ((s.setLoc (bay k) { s.loc (bay k) with state := some .opened }).setLane k { s.lane k with
         state := .labelling
         pending := some (.label 0)
         volume := some { label := l, set := set.toNat, number := 1, twin := false, nextSeq := 1, positions := 0, verified := 0,
                          rewrites := [] }
         run := { State.reset.lanes.p0.run with
           isOpen := true, set := set.toNat, nextVolume := 1, ownCapacity := cap, limit := cap, capacities := [(1, cap)]
           chosen := some ⟨l, home, false⟩ } }))
  ∧ (∀ (s : State) (k : LaneId) (set : BitVec 16) (l m : Label), s.takes 0x30 → (∀ j, s.present j = true) → set ≠ 0 →
     s.twin.on = true → k = s.twin.primary → s.pool.geometry ≠ none → l ≠ m →
     (∀ j, (s.lane j).run.isOpen = false ∧ (s.lane j).volume = none ∧ ((s.lane j).state = .empty ∨ (s.lane j).state = .idle)
       ∧ (s.loc (bay j)).occ = .occupied ∧ (s.loc (bay j)).state = some .scratch
       ∧ (s.loc (bay j)).label = some (if j = k then l else m)) →
     validLabel l = true → validLabel m = true → l ∉ s.library.holds → m ∉ s.library.holds →
     (∀ p, (∀ j, p ≠ bay j) → s.isCandidate (s.loc p) = false) →
     let cap := fun (j : LaneId) => classCapacity (classOf (if j = k then l else m))
     let opened := fun (p : Part) (j : LaneId) =>
       (p.setLoc (bay j) { s.loc (bay j) with state := some .opened }).setLane j { s.lane j with
         state := .labelling
         pending := some (.label 0)
         volume := some { label := if j = k then l else m, set := set.toNat, number := 1, twin := decide (j ≠ k), nextSeq := 1
                          positions := 0, verified := 0, rewrites := [] }
         run := { State.reset.lanes.p0.run with
           isOpen := true, role := if j = k then .primary else .twin, set := set.toNat, nextVolume := 1
           ownCapacity := cap j, limit := min (cap k) (cap k.other), capacities := [(1, cap j)]
           chosen := some ⟨if j = k then l else m, (s.loc (bay j)).home, false⟩ } }
     Judges (.append (BitVec.ofNat 8 k.num) 0 set) s 0x30 .accepted 0 (opened (opened s.toPart k) k.other))
  ∧ (∀ (s : State) (k : LaneId) (slot : Byte) (set : BitVec 16), s.takes 0x30 → s.present k = true →
     let c := Instr.append (BitVec.ofNat 8 k.num) slot set
     let parameter := set = 0 ∨ 24 < slot.toNat ∨ (s.twin.on = true ∧ k ≠ s.twin.primary)
     let busy := fun (j : LaneId) => (s.lane j).run.isOpen = true ∨ ((s.lane j).state ≠ .empty ∧ (s.lane j).state ≠ .idle)
     let state := s.pool.geometry = none ∨ busy k ∨ (s.twin.on = true ∧ busy k.other)
     (parameter → Judges c s 0x30 .parameter 0 s.toPart)
     ∧ (¬ parameter → state → Judges c s 0x30 .state 0 s.toPart)
     ∧ (¬ parameter → ¬ state → slot ≠ 0 →
         (∀ p, (s.loc p).occ = .occupied → s.rankOf k p ≠ some slot.toNat) → Judges c s 0x30 .notFound 0 s.toPart))

/-- CLOSE VOLUME and END RUN in APPEND, with blocks left to send and room for them, put the lane in CLOSING with every queued
block due, END RUN with no further volume to come; in CLOSING, CLOSE VOLUME changes nothing; elsewhere both name STATE (R117,
R120). In a twin run CLOSE VOLUME on either lane, and END RUN on the primary, do so to both lanes in APPEND, each with its own
queue due, and END RUN on the twin lane names STATE while the primary's run is open (R84, R120, R124). With nothing left to
send, CLOSE VOLUME makes the EOV pending at once: its list names each stream whose last segment on the volume is not LAST, with
the record and the next index, and it takes the next sequence (R118). -/
def Obligations.CloseVolumeAndEndRun : Prop :=
  ∀ (s : State) (k : LaneId), s.present k = true →
    let b := BitVec.ofNat 8 k.num
    let l := s.lane k
    let closing := fun (j : LaneId) => { s.lane j with state := .closing, run := { (s.lane j).run with due := (s.lane j).queue.length } }
    let warned := fun (j : LaneId) => { closing j with run := { (closing j).run with warned := true } }
    let stopped := fun (j : LaneId) => { closing j with run := { (closing j).run with stopAfter := true } }
    let rests := fun (j : LaneId) => ∀ i, (s.stream i).lane = some j → (s.stream i).state = .closed ∨ (s.stream i).state = .idle
    (s.twin.on = false → l.state = .append → (s.asm k).openBlock = none → s.twinRun = false →
      (s.takes 0x31 → Judges (.closeVolume b) s 0x31 .accepted 0 (s.setLane k (warned k)))
      ∧ (s.takes 0x32 → rests k → k ∉ s.pool.waiters → Judges (.endRun b) s 0x32 .accepted 0 (s.setLane k (stopped k))))
    ∧ (s.twin.on = true → s.twinRun = true → (∀ j, (s.lane j).state = .append ∧ (s.asm j).openBlock = none) →
      (s.takes 0x31 → Judges (.closeVolume b) s 0x31 .accepted 0 ((s.setLane k (warned k)).setLane k.other (warned k.other)))
      ∧ (s.takes 0x32 → k = s.twin.primary → rests k → s.pool.waiters = [] → Judges (.endRun b) s 0x32 .accepted 0
        ((s.setLane k (stopped k)).setLane k.other (stopped k.other)))
      ∧ (s.takes 0x32 → k ≠ s.twin.primary → rests k → Judges (.endRun b) s 0x32 .state 0 s.toPart))
    ∧ (∀ (v : Volume) (e : SpanEntry), s.twin.on = false → l.state = .append → (s.asm k).openBlock = none → s.twinRun = false → s.takes 0x31 →
      l.queue = [] → l.sent = [] → l.pending = none → l.owedEov = none → l.restore = none → l.verify = none →
      l.access.loan = .none → l.volume = some v → v.positions < l.run.ownCapacity → s.findSpan v.label = some e →
      (∀ i g, (s.stream i).lane = some k → (s.stream i).seg ≠ .filling g) → (s.lane k.other).calm = true →
      let list := (List.finRange 8).filterMap (fun i => match e.ranges.find? (fun r => r.stream == i) with
        | some r => if r.last.flag then none else some (i, r.last.record, r.last.index + 1)
        | none => none)
      ∃ t : State, exec (.closeVolume b) s = .next t ∧ t.pending = s.pending
      ∧ t.frame = (s.composed 0x31 .accepted 0).frame
      ∧ t.lane k = { l with
          state := .closing, pending := some (.eov v.nextSeq 0), volume := some { v with nextSeq := v.nextSeq + 1 }
          run := { l.run with due := 0, warned := true, eovList := list, absentFrom := 0 } })
    ∧ (l.state = .closing → s.takes 0x31 → Judges (.closeVolume b) s 0x31 .accepted 0 s.toPart)
    ∧ (l.state ≠ .append → l.state ≠ .closing →
        (s.takes 0x31 → Judges (.closeVolume b) s 0x31 .state 0 s.toPart)
        ∧ (s.takes 0x32 → Judges (.endRun b) s 0x32 .state 0 s.toPart))

/-- HOLD LANE releases a committed item in service and sets held, RELEASE LANE clears it, in every state of the lane; UNLOAD
makes an UNLOAD pending on an IDLE lane and names STATE on any other (R93, R104, R105). -/
def Obligations.HoldReleaseUnload : Prop :=
  ∀ (s : State) (k : LaneId), s.present k = true →
    let b := BitVec.ofNat 8 k.num
    let l := s.lane k
    (s.takes 0x40 → Judges (.holdLane b) s 0x40 .accepted 0
        (s.setLane k { l with held := true, serving := if l.committed then none else l.serving }))
    ∧ (s.takes 0x41 → Judges (.releaseLane b) s 0x41 .accepted 0 (s.setLane k { l with held := false }))
    ∧ (s.takes 0x43 → l.state = .idle → Judges (.unload b) s 0x43 .accepted 0
        (s.setLane k { l with state := .unloading, pending := some .unload }))
    ∧ (s.takes 0x43 → l.state ≠ .idle → Judges (.unload b) s 0x43 .state 0 s.toPart)

/-- CANCEL LANE empties the lane: queue, Sent List, orders, run, jobs and hold go, its streams with work fault with CANCELLED,
and the lane rests by its bay (R68, R106, R122). The other lane stands still here.
The chosen cartridge becomes INTERRUPTED where its volume is open or in LABELLING; any other that is OPEN in the map returns to
SCRATCH where no LABEL was sent on it, and stays as it is where one was (R122); no other location record changes. -/
def Obligations.CancelLaneEmpties : Prop :=
  ∀ (s : State) (k : LaneId), s.takes 0x42 → s.present k = true → s.pool.waiters = [] →
    (s.lane k.other).calm = true → (s.lane k.other).run.isOpen = false → (s.lane k.other).run.chosen = none →
    ((s.lane k.other).state = .empty ∨ (s.lane k.other).state = .idle) → (s.lane k.other).restore = none →
    (s.lane k.other).verify = none →
    ∃ t : State, exec (.cancelLane (BitVec.ofNat 8 k.num)) s = .next t ∧ t.pending = s.pending
    ∧ t.frame = (s.composed 0x42 .accepted 0).frame
    ∧ (t.lane k).queue = [] ∧ (t.lane k).sent = [] ∧ (t.lane k).pending = none ∧ (t.lane k).outstanding = none
    ∧ (t.lane k).volume = none ∧ (t.lane k).run.isOpen = false ∧ (t.lane k).run.chosen = none ∧ (t.lane k).held = false
    ∧ (t.lane k).restore = none ∧ (t.lane k).verify = none ∧ (t.lane k).serving = none ∧ (t.lane k).ret = none
    ∧ ((s.lane k).state ≠ .fault → (t.lane k).state = if (t.loc (bay k)).occ = .occupied then .idle else .empty)
    ∧ ((s.lane k).state = .fault → (t.lane k).state = .fault)
    ∧ (∀ i, (s.stream i).lane = some k → (s.stream i).state ≠ .closed → (s.stream i).state ≠ .faulted →
        (t.stream i).state = .faulted ∧ (t.stream i).cause = .cancelled)
    ∧ (∀ (c : Chosen) (p : Loc), (s.lane k).run.chosen = some c → (s.loc p).occ = .occupied →
        (∀ q, (s.loc q).label = some c.label ↔ q = p) →
        let written := (s.lane k).state = .append ∨ (s.lane k).state = .closing ∨ (s.lane k).state = .labelling
        (∀ q, q ≠ p → t.loc q = s.loc q)
        ∧ (written → t.loc p = { s.loc p with state := some .interrupted })
        ∧ (¬ written → (s.loc p).state = some .opened →
            t.loc p = if c.labelled then s.loc p else { s.loc p with state := some .scratch }))

/-- CLEAR ERRORS takes a lane without a run out of FAULT to EMPTY or IDLE by its bay, and a FAULTED changer to OFFLINE with a
QUERY; its detail counts what it cleared, and an unknown target is PARAMETER (R108, R145, R186).
A lane whose run has stop after set and nothing left to send ends its run: its chosen cartridge returns to SCRATCH where no LABEL
was sent on it, and stays as it is where one was (R122). The other lane stands still there.
The record of frames sent is the model's own (log entry 5). -/
def Obligations.ClearErrorsClears : Prop :=
  ∀ s : State, s.takes 0x78 →
    (∀ k, s.present k = true → (s.lane k).state = .fault → (s.lane k).run.isOpen = false →
      Judges (.clearErrors (BitVec.ofNat 8 k.num)) s 0x78 .accepted 1
        (s.setLane k { s.lane k with
          code := .none, cut := none, state := if (s.loc (bay k)).occ = .occupied then .idle else .empty }))
    ∧ (∀ k, s.present k = true → (s.lane k).state ≠ .fault →
        Judges (.clearErrors (BitVec.ofNat 8 k.num)) s 0x78 .accepted 0 s.toPart)
    ∧ (s.changer.state = .faulted → Judges (.clearErrors 2) s 0x78 .accepted 1
        { s.toPart with changer := { s.changer with
          state := .offline, querySent := s.now, sent := s.changer.sent ++ [[0xA7, 0x23, 0x00, 0xDD]]
          out := some { command := .query, entry := none, timer := none, afterReset := false } } })
    ∧ (∀ b : Byte, 3 < b.toNat → Judges (.clearErrors b) s 0x78 .parameter 0 s.toPart)
    ∧ (∀ (k : LaneId) (c : Chosen) (p : Loc), s.present k = true → (s.lane k).state = .fault → (s.lane k).run.isOpen = true →
        (s.lane k).run.stopAfter = true → (s.lane k).queue = [] → (s.lane k).restore = none → (s.lane k).verify = none →
        (s.lane k).access.loan = .none → (s.lane k.other).calm = true → (s.lane k.other).run.chosen = none →
        (s.lane k).run.chosen = some c → (s.loc p).occ = .occupied → (∀ q, (s.loc q).label = some c.label ↔ q = p) →
        ∃ t : State, exec (.clearErrors (BitVec.ofNat 8 k.num)) s = .next t ∧ t.pending = s.pending
        ∧ t.frame = (s.composed 0x78 .accepted 1).frame
        ∧ (t.lane k).run = State.reset.lanes.p0.run ∧ (t.lane k).volume = none ∧ (t.lane k).code = .none
        ∧ (t.lane k).state = (if (s.loc (bay k)).occ = .occupied then .idle else .empty)
        ∧ (∀ q, q ≠ p → t.loc q = s.loc q)
        ∧ t.loc p = if c.labelled then s.loc p else { s.loc p with state := some .scratch })

/-! ## Magazine and changer -/

/-- INVENTORY joins its scans to the changer queue, MOVE its move; each is PARAMETER, STATE or FULL in the order of R148 and
R149, and changes no other block. A byte of MOVE that names no location is PARAMETER, as are two equal locations, D1 on a part
strapped for one lane, an EMPTY from record and an OCCUPIED to record. A FAULTED changer, a slot of an open magazine, the bay of a
lane at work and an OPEN from record are STATE (R149); the state that an UNKNOWN record remembers is not looked at (R130).
The entry's number is the model's own (log entry 5). -/
def Obligations.InventoryAndMove : Prop :=
  ∀ (s : State) (which : Byte) (a b : Loc),
    let joined := fun (j : Job) => ({ s.toPart with changer := { s.changer with
      queue := s.changer.queue ++ [⟨s.changer.nextEntry, j, false, false⟩], nextEntry := s.changer.nextEntry + 1 } } : Part)
    let directives := (s.changer.queue.filter (·.job.isDirective)).length
    let left := locs.filter (fun p => p.val < 12)
    let right := locs.filter (fun p => 12 ≤ p.val ∧ p.val < 24)
    let c := Instr.move (BitVec.ofNat 8 (a.val + 1)) (BitVec.ofNat 8 (b.val + 1))
    (s.takes 0x50 →
      (which = 0 ∨ 3 < which.toNat → Judges (.inventory which) s 0x50 .parameter 0 s.toPart)
      ∧ (which ≠ 0 → which.toNat ≤ 3 → s.changer.state = .faulted → Judges (.inventory which) s 0x50 .state 0 s.toPart)
      ∧ (which ≠ 0 → which.toNat ≤ 3 → s.changer.state ≠ .faulted → 4 ≤ directives →
          Judges (.inventory which) s 0x50 .full 0 s.toPart)
      ∧ (which ≠ 0 → which.toNat ≤ 3 → s.changer.state ≠ .faulted → directives < 4 →
          Judges (.inventory which) s 0x50 .accepted 0 (joined (.inventory
            ((if which.getLsbD 0 then left else []) ++ (if which.getLsbD 1 then right else []) ++ [25, 26, 24])))))
    ∧ (s.takes 0x51 →
      let parameter := a = b ∨ ((a = 26 ∨ b = 26) ∧ s.pins.lnc = false) ∨ (s.loc a).occ = .empty ∨ (s.loc b).occ = .occupied
      let shut := fun (p : Loc) => (p.val < 12 ∧ s.library.openL = true) ∨ (12 ≤ p.val ∧ p.val < 24 ∧ s.library.openR = true)
      let busy := fun (p : Loc) => ∃ k, p = bay k ∧ (s.lane k).state ≠ .empty ∧ (s.lane k).state ≠ .idle
      let state := s.changer.state = .faulted ∨ shut a ∨ shut b ∨ busy a ∨ busy b
        ∨ ((s.loc a).occ = .occupied ∧ (s.loc a).state = some .opened)
      (parameter → Judges c s 0x51 .parameter 0 s.toPart)
      ∧ (¬ parameter → state → Judges c s 0x51 .state 0 s.toPart)
      ∧ (¬ parameter → ¬ state → directives < 4 → Judges c s 0x51 .accepted 0 (joined (.move a b)))
      ∧ (¬ parameter → ¬ state → 4 ≤ directives → Judges c s 0x51 .full 0 s.toPart)
      ∧ (∀ x y : Byte, x = 0 ∨ 27 < x.toNat ∨ y = 0 ∨ 27 < y.toNat → Judges (.move x y) s 0x51 .parameter 0 s.toPart))

/-- RETIRE makes a cartridge that stands at rest SCRATCH, clears VERIFIED and drops its span entry, telling whether it had
one; a label of wrong format is PARAMETER, one nowhere NOT FOUND, a held one STATE (R138).
FORGET VOLUME drops the span entry and makes every record of its label FOREIGN and not VERIFIED; an unknown label is NOT
FOUND, a held or OPEN one STATE (R128).
A label that a record only remembers is made FOREIGN too (log entry 22). -/
def Obligations.RetireAndForget : Prop :=
  (∀ (s : State) (l : Label), s.takes 0x54 →
     (validLabel l = false → Judges (.retire l) s 0x54 .parameter 0 s.toPart)
     ∧ (validLabel l = true → s.findLabel l = none → Judges (.retire l) s 0x54 .notFound 0 s.toPart)
     ∧ (∀ p, validLabel l = true → s.findLabel l = some p → l ∈ s.library.holds → Judges (.retire l) s 0x54 .state 0 s.toPart)
     ∧ (∀ p, validLabel l = true → s.findLabel l = some p → l ∉ s.library.holds → (s.loc p).state ≠ some .opened →
         (∀ e, s.findSpan l = some e → e.mirror ≠ .opened) →
         (∀ k, p = bay k → (s.lane k).state = .empty ∨ (s.lane k).state = .idle) →
         Judges (.retire l) s 0x54 .accepted (if s.findSpan l = none then 0 else 1)
           (({ s.toPart with span := s.span.filter (fun e => e.label ≠ l) } : Part).setLoc p
             { s.loc p with state := some .scratch, verified := false })))
  ∧ (∀ (s : State) (l : Label), s.takes 0x72 →
     (s.findSpan l = none → Judges (.forgetVolume l) s 0x72 .notFound 0 s.toPart)
     ∧ (∀ e, s.findSpan l = some e → l ∈ s.library.holds ∨ e.mirror = .opened →
         Judges (.forgetVolume l) s 0x72 .state 0 s.toPart)
     ∧ (∀ e, s.findSpan l = some e → l ∉ s.library.holds → e.mirror ≠ .opened →
         (∀ k, (s.lane k).restore = none ∧ (s.lane k).verify = none) →
         Judges (.forgetVolume l) s 0x72 .accepted 0 { s.toPart with
           span := s.span.filter (fun e => e.label ≠ l)
           library := { s.library with records := s.library.records.map (fun r =>
             if r.label = some l then { r with state := some .foreign, verified := false } else r) } }))

/-- With the changer READY, a lane load that still fits is started: its MOVE frame goes out and the changer is BUSY with it;
once its last byte is sent, the answer timer of 120 s runs (R139, R143, R146, R147).
The entry's number and the record of frames sent are the model's own (log entry 5). -/
def Obligations.LoadCommandStarts : Prop :=
  ∀ (s : State) (n : Nat) (k : LaneId) (p : Loc) (l : Label), s.pins.resetLow = false →
    (s.changer.state = .ready → s.changer.out = none → s.changer.queue = [⟨n, .load k p l, false, false⟩] →
      (s.loc p).occ = .occupied → (s.loc p).label = some l → (s.loc (bay k)).occ = .empty →
      Leaves .changerCommandStart s { s.toPart with changer := { s.changer with
        state := .busy
        queue := [⟨n, .load k p l, true, false⟩]
        out := some ⟨.move p (bay k), some n, none, false⟩
        sent := s.changer.sent ++ [[0xA7, 0x21, 0x02, byteOf (p.val + 1), byteOf ((bay k).val + 1),
          0 - (0x23 + byteOf (p.val + 1) + byteOf ((bay k).val + 1))]] } })
    ∧ (∀ a b e r, s.changer.out = some ⟨.move a b, e, none, r⟩ →
      Leaves .commandFrameSent s { s.toPart with changer := { s.changer with
        out := some ⟨.move a b, e, some ⟨s.now, 120000000⟩, r⟩ } })

/-- An OK answer to a directive MOVE moves the record: the target takes it, a bay also the home slot, the source is EMPTY;
the entry leaves the queue and the changer is READY. An OK answer to a scan of M that reads a label known nowhere makes M
OCCUPIED and FOREIGN, one without a label OCCUPIED and UNLABELLED (R132, R144). Answers that fail are recorded as the last failure
(R151). SOURCE EMPTY makes the source, or the place scanned, EMPTY; TARGET FULL makes the target UNKNOWN with no label, DOOR OPEN
leaves the map at a MOVE, and both make a place scanned UNKNOWN; the changer is READY. MECHANISM makes every location of the
command UNKNOWN and the changer FAULTED, with CHANGER FAULT (R144, R145). A lane's load that fails puts its lane in FAULT with
CHANGER (R144, R147). -/
def Obligations.MoveAndScanAnswers : Prop :=
  ∀ (s : State) (n : Nat) (tm : Option Timer), s.pins.resetLow = false →
    let blank : LocRecord := { occ := .empty, label := none, state := none, verified := false, home := none }
    let unknown := fun (p : Part) (q : Loc) => p.setLoc q { s.loc q with occ := .unknown }
    let done := fun (st : ChangerState) (f : Option LastFailure) => ({ s.toPart with changer := { s.changer with
      state := st, out := none, queue := [], lastFailure := f } } : Part)
    (∀ a b, a ≠ b → s.changer.out = some ⟨.move a b, some n, tm, false⟩ →
      s.changer.queue = [⟨n, .move a b, true, false⟩] →
      let failed := fun (c : FailCause) => some (⟨.move, some a, some b, c⟩ : LastFailure)
      ((s.loc a).occ = .occupied →
        Leaves (.moveAnswer 0) s (((done .ready s.changer.lastFailure).setLoc a blank).setLoc b
          { s.loc a with home := if b = 25 ∨ b = 26 then (if a.val < 25 then some (a.val + 1) else (s.loc a).home) else none }))
      ∧ Leaves (.moveAnswer 1) s ((done .ready (failed .sourceEmpty)).setLoc a blank)
      ∧ Leaves (.moveAnswer 2) s ((done .ready (failed .targetFull)).setLoc b
          { occ := .unknown, label := none, state := none, verified := false, home := (s.loc b).home })
      ∧ Leaves (.moveAnswer 3) s (done .ready (failed .doorOpen))
      ∧ Leaves (.moveAnswer 4) s ((unknown (unknown (done .faulted (failed .mechanism)) a) b).latch .changerFault))
    ∧ (s.changer.out = some ⟨.scan 24, some n, tm, false⟩ → s.changer.queue = [⟨n, .scanM, true, false⟩] →
      let failed := fun (c : FailCause) => some (⟨.scanM, some 24, none, c⟩ : LastFailure)
      (∀ l, (∀ q, (s.loc q).label ≠ some l) → s.findSpan l = none → s.isChosen l = false →
        Leaves (.scanAnswer 0 (some l)) s ((done .ready s.changer.lastFailure).setLoc 24
          { s.loc 24 with occ := .occupied, label := some l, state := some .foreign, verified := false }))
      ∧ Leaves (.scanAnswer 0 none) s ((done .ready s.changer.lastFailure).setLoc 24
          { s.loc 24 with occ := .occupied, label := none, state := some .unlabelled, verified := false })
      ∧ Leaves (.scanAnswer 1 none) s ((done .ready (failed .sourceEmpty)).setLoc 24 blank)
      ∧ Leaves (.scanAnswer 2 none) s (unknown (done .ready (failed .targetFull)) 24)
      ∧ Leaves (.scanAnswer 3 none) s (unknown (done .ready (failed .doorOpen)) 24)
      ∧ Leaves (.scanAnswer 4 none) s ((unknown (done .faulted (failed .mechanism)) 24).latch .changerFault))
    ∧ (∀ k p l (r : Byte), s.changer.out = some ⟨.move p (bay k), some n, tm, false⟩ →
      s.changer.queue = [⟨n, .load k p l, true, false⟩] → (s.lane k).state ≠ .fault → (s.lane k.other).calm = true →
      1 ≤ r.toNat → r.toNat ≤ 4 →
      let cause : FailCause := if r = 1 then .sourceEmpty else if r = 2 then .targetFull else if r = 3 then .doorOpen else .mechanism
      ∃ u : State, exec (.moveAnswer r) s = .next u ∧ u.pending = s.pending ∧ (u.lane k).state = .fault
      ∧ (u.lane k).code = .changer ∧ u.changer.state = (if r = 4 then .faulted else .ready) ∧ u.changer.queue = []
      ∧ u.changer.lastFailure = some ⟨.load k, some p, some (bay k), cause⟩)

/-- An OK answer to QUERY that shows the map as it stands makes the changer READY; while OFFLINE a QUERY is sent again 10 s
after the last; a MOVE whose answer timer runs out makes the changer FAULTED, both its locations UNKNOWN, and latches CHANGER
FAULT (R143 to R145, R151). Timers may run out late, and the record of frames sent is the model's own (log entries 2, 5). -/
def Obligations.QueryAndTimeouts : Prop :=
  ∀ (s : State), s.pins.resetLow = false →
    (∀ (tm : Option Timer) (b : Byte), s.changer.out = some ⟨.query, none, tm, false⟩ → b.getLsbD 0 = s.library.openL →
      b.getLsbD 1 = s.library.openR → (s.loc 24).occ = (if b.getLsbD 2 then .occupied else .empty) →
      Leaves (.queryAnswer 0 (some b)) s { s.toPart with changer := { s.changer with state := .ready, out := none } })
    ∧ (s.changer.state = .offline → s.changer.out = none → s.changer.querySent + 10000000 ≤ s.now →
      Leaves .queryRetry s { s.toPart with changer := { s.changer with
        out := some ⟨.query, none, none, false⟩, querySent := s.now
        sent := s.changer.sent ++ [[0xA7, 0x23, 0x00, 0xDD]] } })
    ∧ (∀ (n : Nat) (a b : Loc) (tm : Timer) (r : Bool), s.changer.out = some ⟨.move a b, some n, some tm, r⟩ →
      s.changer.queue = [⟨n, .move a b, true, r⟩] → tm.start + tm.period ≤ s.now → a ≠ b →
      Leaves .answerTimer s (((({ s.toPart with changer := { s.changer with
          state := .faulted, out := none, queue := [], lastFailure := some ⟨.move, some a, some b, .timeout⟩ } } : Part).setLoc a
        { s.loc a with occ := .unknown }).setLoc b { s.loc b with occ := .unknown }).latch .changerFault))

/-- The notices: a magazine opened sets its flag and makes its 12 slots UNKNOWN, closed clears the flag and queues their
scan; the mail slot loaded is OCCUPIED and UNLABELLED with a scan queued, emptied is EMPTY; a mechanism fault with nothing
outstanding makes the changer FAULTED and latches CHANGER FAULT (R133 to R135, R145, R151).
The entry's number is the model's own (log entry 5). -/
def Obligations.NoticesAct : Prop :=
  ∀ (s : State), s.pins.resetLow = false → s.changer.queue = [] → s.changer.out = none →
    let slotsOf := fun (right : Bool) => locs.filter (fun p => p.val < 24 ∧ (decide (12 ≤ p.val) == right) = true)
    let queued := fun (j : Job) (c : Changer) =>
      ({ c with queue := [⟨c.nextEntry, j, false, false⟩], nextEntry := c.nextEntry + 1 } : Changer)
    (∀ right : Bool,
      let flags := fun (o : Bool) => ({ s.library with
        openL := if right then s.library.openL else o, openR := if right then o else s.library.openR } : Library)
      (∃ t : State, exec (.magazineOpened (if right then 1 else 0)) s = .next t ∧ t.pending = s.pending
        ∧ t.library.openL = (flags true).openL ∧ t.library.openR = (flags true).openR ∧ t.library.holds = s.library.holds
        ∧ (s.quiet = true → (∀ p, t.loc p = if p ∈ slotsOf right then { s.loc p with occ := .unknown } else s.loc p)
          ∧ t.lanes = s.lanes ∧ t.span = s.span ∧ t.changer = s.changer))
      ∧ (s.changer.state ≠ .faulted → Leaves (.magazineClosed (if right then 1 else 0)) s { s.toPart with
          library := flags false, changer := queued (.inventory (slotsOf right)) s.changer }))
    ∧ (s.changer.state ≠ .faulted → Leaves .mailSlotLoaded s (({ s.toPart with changer := queued .scanM s.changer } : Part).setLoc 24
        { s.loc 24 with occ := .occupied, label := none, state := some .unlabelled, verified := false }))
    ∧ Leaves .mailSlotEmptied s (s.setLoc 24 { occ := .empty, label := none, state := none, verified := false, home := none })
    ∧ (s.changer.state ≠ .faulted →
      Leaves .mechanismFault s
        (({ s.toPart with changer := { s.changer with state := .faulted } } : Part).latch .changerFault))

/-- The receiver counts what it discards and what nothing takes: a frame of an unknown kind is STRAY. While hunting, SYNC begins a
frame and any other byte is not counted; a length over 24 and a check that fails discard the frame at that byte; a gap of more
than 20 ms after its last byte discards it at FRAME_GAP, and before that FRAME_GAP changes nothing; each leaves every other block
(R140, R141).
A frame row leaves the receiver as it is, and FRAMING_DISCARD is one byte, which ends 174 µs after it began (log entry 18). That a
gap no FRAME_GAP has told of discards the frame at the byte that ends it is the model's choice (log entry 2). -/
def Obligations.FramesDiscardedAndStray : Prop :=
  ∀ (s : State), s.pins.resetLow = false →
    let counted := fun (r : Receiver) => ({ s.toPart with changer := { s.changer with
      receiver := r, discards := (s.changer.discards + 1) % 2 ^ 32 } } : Part)
    let begun := Receiver.taking [] s.now
    (∀ (kind : Byte) (ps : List Byte), kind.toNat ∉ [0xA1, 0xA2, 0xA3, 0x40, 0x41, 0x42, 0x43, 0x44] →
      Leaves (.stray kind ps) s { s.toPart with changer := { s.changer with strays := (s.changer.strays + 1) % 2 ^ 32 } })
    ∧ (s.changer.receiver = .hunting →
      Leaves .frameGap s s.toPart
      ∧ Leaves (.framingDiscard 0xA7) s { s.toPart with changer := { s.changer with receiver := begun } }
      ∧ ∀ b : Byte, b ≠ 0xA7 → Leaves (.framingDiscard b) s s.toPart)
    ∧ (∀ bs last, s.changer.receiver = .taking bs last →
      (last + 20000 < s.now → Leaves .frameGap s (counted .hunting))
      ∧ (s.now ≤ last + 20000 → Leaves .frameGap s s.toPart)
      ∧ (last + 20174 ≤ s.now → Leaves (.framingDiscard 0xA7) s (counted begun)
          ∧ ∀ b : Byte, b ≠ 0xA7 → Leaves (.framingDiscard b) s (counted .hunting))
      ∧ (s.now < last + 20174 →
          (∀ kind len : Byte, bs = [kind] → 24 < len.toNat → Leaves (.framingDiscard len) s (counted .hunting))
          ∧ (∀ (kind c : Byte) (ps : List Byte), ps.length ≤ 24 → bs = kind :: byteOf ps.length :: ps →
              (bs ++ [c]).foldl (· + ·) 0 ≠ 0 → Leaves (.framingDiscard c) s (counted .hunting))))

/-- The receiver by R140. While hunting a byte other than SYNC does nothing. A frame whose check fits is handed on by its kind
and parameters at its check byte; one whose length is above 24 is dropped and counted at its length byte, one whose check
fails at its check byte, and one in the middle of which a gap falls when the gap passes 20 ms and not before; a dropped frame has
no other effect. The byte that ends such a gap is taken as if hunting, and bytes that end within 20 ms of the last one go on with
the frame. -/
def Obligations.ReceiverTakesFrame : Prop :=
  ∀ s : Part, s.changer.receiver = .hunting →
    let counted : Part := { s with changer := { s.changer with discards := (s.changer.discards + 1) % 2 ^ 32 } }
    (∀ b : Byte, b ≠ 0xA7 → s.receive b = s)
    ∧ (∀ kind len : Byte, 24 < len.toNat → [0xA7, kind, len].foldl Part.receive s = counted)
    ∧ (∀ (kind c : Byte) (params : List Byte), params.length ≤ 24 →
        let body := kind :: byteOf params.length :: (params ++ [c])
        (body.foldl (· + ·) 0 = 0 → (0xA7 :: body).foldl Part.receive s = s.takeFrame kind.toNat params)
        ∧ (body.foldl (· + ·) 0 ≠ 0 → (0xA7 :: body).foldl Part.receive s = counted)
        ∧ (∀ n d, n < body.length →
            let x : Part := { ((0xA7 :: body).take (n + 1)).foldl Part.receive s with now := s.now + d }
            let dropped : Part := { counted with now := s.now + d }
            x.frameGap = (if 20000 < d then dropped else x)
            ∧ (20000 < d → x.frameGap.receive 0xA7 = dropped.setReceiver (.taking [] dropped.now)
                ∧ ∀ b : Byte, b ≠ 0xA7 → x.frameGap.receive b = dropped)
            ∧ (d ≤ 20000 → body.foldl (· + ·) 0 = 0 →
                (body.drop n).foldl Part.receive x = Part.takeFrame { s with now := s.now + d } kind.toNat params)))

/-! ## Reading back and the Span Table -/

/-- RESTORE with one volume that covers the request, its cartridge in a slot and the lane's bay EMPTY: the job stands with
its effective range in FETCHING, the lane is LOADING and its load joins the changer queue (R153, R154, R155).
VERIFY VOLUME of a volume that is not OPEN, its cartridge in a slot and the lane's bay EMPTY: the job stands in FETCHING,
the lane is LOADING, its load joins the changer queue, and the detail is the number of chunks, of which the Outcome Word keeps
the low 16 bits, the model's choice (R168, R169; log entry 36).
The numbers of the job and of the entry are the model's own (log entry 5). -/
def Obligations.ReadJobsStart : Prop :=
  (∀ (s : State) (k : LaneId) (i : Fin 8) (set : BitVec 16) (first last base size : BitVec 32) (e : SpanEntry)
     (r : StreamRange) (p : Loc), s.takes 0x60 → s.present k = true → set ≠ 0 → first.toNat ≤ last.toNat →
     badRegion base.toNat size.toNat = false → s.destOverlaps base.toNat size.toNat = false →
     (s.lane k).restore = none → (s.lane k).verify = none → (s.lane k).run.isOpen = false →
     ((s.lane k).state = .empty ∨ (s.lane k).state = .idle) →
     s.restoreCandidates set.toNat i first.toNat last.toNat = [(e, r)] → e.twin = false → s.findLabel e.label = some p →
     (∀ j, p ≠ bay j) → (s.loc (bay k)).occ = .empty → s.changer.state ≠ .faulted →
     Judges (.restore (BitVec.ofNat 8 k.num) (BitVec.ofNat 8 i.val) set 0 first last base size) s 0x60 .accepted 1
       (({ s.toPart with changer := { s.changer with
           queue := s.changer.queue ++ [⟨s.changer.nextEntry, .load k p e.label, false, false⟩]
           nextEntry := s.changer.nextEntry + 1 } } : Part).setLane k { s.lane k with
         state := .loading
         nextServing := (s.lane k).nextServing + 1
         unpack := Unpack.empty true
         access := Access.none
         restore := some
           { id := (s.lane k).nextServing, set := set.toNat, stream := i, reqFirst := first.toNat, reqLast := last.toNat
             pref := 0, twinCopy := false, effFirst := max first.toNat r.first.record, effLast := min last.toNat r.last.record
             volumes := [volRecord e r], current := 0, phase := .fetching, expected := r.firstBlock, gap := false
             cursor := max first.toNat r.first.record, openPrefix := none, destBase := base.toNat, destSize := size.toNat
             pointer := base.toNat, done := 0, failed := 0, firstFailed := none, written := 0, damaged := 0, lost := 0
             early := false, result := .none } }))
  ∧ (∀ (s : State) (k : LaneId) (l : Label) (e : SpanEntry) (p : Loc), s.takes 0x62 → s.present k = true →
     (labelBytes l).all printable = true → s.findSpan l = some e → e.mirror ≠ .opened →
     (s.lane k).restore = none → (s.lane k).verify = none → (s.lane k).run.isOpen = false →
     ((s.lane k).state = .empty ∨ (s.lane k).state = .idle) → s.findLabel l = some p → (∀ j, p ≠ bay j) →
     (s.loc (bay k)).occ = .empty → s.changer.state ≠ .faulted →
     Judges (.verifyVolume (BitVec.ofNat 8 k.num) l) s 0x62 .accepted (e.verified / 64 + 1)
       (({ s.toPart with changer := { s.changer with
           queue := s.changer.queue ++ [⟨s.changer.nextEntry, .load k p l, false, false⟩]
           nextEntry := s.changer.nextEntry + 1 } } : Part).setLane k { s.lane k with
         state := .loading
         unpack := Unpack.empty false
         access := Access.none
         verify := some
           { label := l, verified := e.verified, eovVerified := e.eovVerified, absentFrom := e.absentFrom, runs := e.runs
             phase := .fetching, expected := 0, gaps := Vector.replicate 8 false, kept := [], accepted := 0, damaged := 0
             lost := 0, skipped := 0, done := 0, failed := 0, partials := 0, chunks := 0, firstFailure := none
             result := .none } }))

/-- RESTORE CONTINUE gives a job in WAITING DEST its new region and takes it back to READING, with the return timer started
again; a bad region is PARAMETER, no job or another phase STATE (R164). -/
def Obligations.RestoreContinues : Prop :=
  ∀ (s : State) (k : LaneId) (base size : BitVec 32), s.takes 0x61 → s.present k = true →
    let c := Instr.restoreContinue (BitVec.ofNat 8 k.num) base size
    (badRegion base.toNat size.toNat = true → Judges c s 0x61 .parameter 0 s.toPart)
    ∧ (badRegion base.toNat size.toNat = false → (∀ j, (s.lane k).restore = some j → j.phase ≠ .waitingDest) →
        Judges c s 0x61 .state 0 s.toPart)
    ∧ (∀ j, badRegion base.toNat size.toNat = false → (s.lane k).restore = some j → j.phase = .waitingDest →
        s.destOverlaps base.toNat size.toNat = false →
        Judges c s 0x61 .accepted 0 (s.setLane k { s.lane k with
          restore := some { j with phase := .reading, destBase := base.toNat, destSize := size.toNat, pointer := base.toNat }
          outstanding := (s.lane k).outstanding.map (fun o => { o with timer := some ⟨s.now, 60000000⟩ }) }))

/-- The walk of a restore steps over a segment of another stream: the next segment's place is right behind it, and no other
block changes (R76, R161).
A record at the cursor that one segment holds whole, FIRST and LAST, with room for it: the decoder produces its tokens' bytes
from nothing (R3, R15, R16), own writes carry its prefix as INCOMPLETE, the bytes, and the prefix again with the result, DONE
when the record check fits them and RECORD CHECK otherwise (R17, R163), and the record is counted and passed (R161).
One command works one segment (log entry 3); how a run of bytes is cut into bursts is the model's choice (log entry 8). -/
def Obligations.WalkStepsOverOtherStream : Prop :=
  (∀ (s : State) (k : LaneId) (j : RestoreJob) (block : List Byte) (off used : Nat), s.pins.resetLow = false →
    (s.lane k).restore = some j → j.phase = .reading → j.cursor ≤ j.effLast → (s.lane k).buffer = some block →
    (s.lane k).access.walk = some ⟨off, used, none, none⟩ → used ≤ 32720 →
    let h := segHead ((slice block 32 32720).drop off)
    h.packed ≤ 4096 → off + h.size < used → h.stream ≠ j.stream.val →
    Leaves (.unpackSegment k) s (s.setLane k { s.lane k with
      access := { (s.lane k).access with walk := some ⟨off + h.size, used, none, none⟩ } }))
  ∧ (∀ (s : State) (k : LaneId) (j : RestoreJob) (block : List Byte) (off used : Nat) (ts : List Token), s.pins.resetLow = false →
    (s.lane k).restore = some j → j.phase = .reading → j.cursor ≤ j.effLast → j.gap = false →
    (s.lane k).buffer = some block → (s.lane k).access.walk = some ⟨off, used, none, none⟩ → used ≤ 32720 →
    s.slot k j.stream = .empty →
    let bs := (slice block 32 32720).drop off
    let h := segHead bs
    h.packed ≤ 4096 → off + h.size ≤ used → h.stream = j.stream.val → h.record = j.cursor → h.first = true → h.last = true →
    h.index = 0 → h.raw = 0 → slice bs 20 h.packed = ts.flatMap Token.packed →
    (∀ t ∈ ts, match t with
      | .lit bs => 1 ≤ bs.length ∧ bs.length ≤ 64
      | .rep n _ => 3 ≤ n ∧ n ≤ 66
      | .copy l d => 3 ≤ l ∧ l ≤ 10 ∧ 1 ≤ d ∧ d ≤ 4096) →
    (∀ a l d b, ts = a ++ .copy l d :: b → d ≤ (expandAll [] a).length) →
    let raw := expandAll [] ts
    j.pointer + 16 + raw.length ≤ j.destBase + j.destSize →
    let fine := foldCheck raw = field bs (20 + h.packed) 4
    let finished := j.effLast < j.cursor + 1 ∨ used ≤ off + h.size
    let prefixOf := fun (n r : Nat) => leBytes 4 j.cursor ++ leBytes 8 n ++ leBytes 2 r ++ zeros 2
    let write := fun (x : Part) (a : Nat) (bytes : List Byte) => x.pushWrites (fun _ => .restoreOut k j.id) a bytes
    let x := s.setLane k { s.lane k with
      buffer := if finished then none else some block
      access := { (s.lane k).access with walk := if finished then none else some ⟨off + h.size, used, none, none⟩ }
      restore := some { j with
        cursor := j.cursor + 1, pointer := j.pointer + 16 + raw.length, written := j.written + 16 + raw.length
        openPrefix := none
        done := if fine then j.done + 1 else j.done
        failed := if fine then j.failed else j.failed + 1
        firstFailed := if fine then j.firstFailed else j.firstFailed <|> some j.cursor } }
    Leaves (.unpackSegment k) s (write (write (write x j.pointer (prefixOf 0 4)) (j.pointer + 16) raw) j.pointer
      (prefixOf raw.length (if fine then 0 else 1))))

/-- EXPORT SPAN and IMPORT SPAN at a free 64-byte-aligned address start: the writes of the whole image, or the read of its
header, join the own line, and the slot stays BUSY until they are answered; a bad address is PARAMETER (R125, R127).
The answer to EXPORT SPAN's last write gives ACCEPTED with the count as detail; a FAULT on a write gives PARAMETER and takes the
other writes off the line (R38, R125). The answer to IMPORT SPAN's last read puts the image's entries in the table's place, OPEN
made INTERRUPTED, and gives every location record of an imported label that entry's state; a wrong marker or a count above 32
is PARAMETER and leaves the table (R127). That the header is judged again at the last read, before the held labels that the image
lacks, is the model's reading (log entry 28).
How the image is cut into bursts is the model's choice (log entry 8). -/
def Obligations.SpanTransfersStart : Prop :=
  (∀ (s : State) (addr : BitVec 32), s.bus.port ≠ none →
    (s.takes 0x70 → addr.toNat % 64 = 0 → addr.toNat + 64 + 512 * s.span.length ≤ 2 ^ 32 →
      (∀ r ∈ s.areaRange :: s.windowRanges none ++ s.poolRange,
        overlaps addr.toNat (64 + 512 * s.span.length) r.1 r.2 = false) → s.quiet = true →
      ∃ (t : State) (rest : List OwnAccess), exec (.exportSpan addr) s = .next t ∧ t.pending = s.pending
      ∧ t.blocks = (s.setDirSlot (.busy 0x70 false (.exporting s.span.length))).blocks
      ∧ t.bus.ownLine = s.bus.ownLine ++ writeBursts (fun last => .spanWrite last) addr.toNat (spanImage s.span) ++ rest)
    ∧ (s.takes 0x71 → addr.toNat % 64 = 0 → addr.toNat + 64 ≤ 2 ^ 32 →
      (∀ k, (s.lane k).run.isOpen = false ∧ (s.lane k).restore = none ∧ (s.lane k).verify = none) → s.quiet = true →
      ∃ (t : State) (rest : List OwnAccess), exec (.importSpan addr) s = .next t ∧ t.pending = s.pending
      ∧ t.blocks = (s.setDirSlot (.busy 0x71 false (.importing addr.toNat []))).blocks
      ∧ t.bus.ownLine = s.bus.ownLine ++ [readBurst (.spanRead true) addr.toNat 8] ++ rest)
    ∧ (addr.toNat % 64 ≠ 0 →
      (s.takes 0x70 → Judges (.exportSpan addr) s 0x70 .parameter 0 s.toPart)
      ∧ (s.takes 0x71 → Judges (.importSpan addr) s 0x71 .parameter 0 s.toPart)))
  ∧ (∀ (s : State) (a : OwnAccess) (n : Nat) (last : Bool) (data : List Byte), s.pins.resetLow = false →
    s.bus.port = some (.own a false) → a.kind = .spanWrite last → s.unit.slot = .busy 0x70 false (.exporting n) →
    let answered := fun (x : Part) (r : Result) (d : Nat) =>
      (x.freePort.composed 0x70 r d).pushOwn [(x.freePort.composed 0x70 r d).outcomeWrite false]
    (last = true → Leaves (.ownAccessAnswered true data) s (answered s.toPart .accepted n))
    ∧ Leaves (.ownAccessAnswered false data) s (answered { s.toPart with bus := { s.bus with
        ownLine := s.bus.ownLine.filter (fun y => match y.kind with
          | .spanWrite _ => false
          | _ => true) } } .parameter 0))
  ∧ (∀ (s : State) (a : OwnAccess) (addr : Nat) (old data : List Byte), s.pins.resetLow = false →
    s.bus.port = some (.own a false) → a.kind = .spanRead true → s.unit.slot = .busy 0x71 false (.importing addr old) →
    data.length = 8 * a.beats →
    let image := old ++ data
    let n := (byteAt image 4).toNat
    let answered := fun (x : Part) (r : Result) (d : Nat) =>
      (x.freePort.composed 0x71 r d).pushOwn [(x.freePort.composed 0x71 r d).outcomeWrite false]
    (image.take 4 ≠ [0x4B, 0x44, 0x53, 0x54] ∨ 32 < n →
      Leaves (.ownAccessAnswered true data) s (answered s.toPart .parameter 0))
    ∧ (∀ es : List SpanEntry, image.take 4 = [0x4B, 0x44, 0x53, 0x54] → n ≤ 32 → image.length = 64 + 512 * n →
      addr + 64 + 512 * n ≤ 2 ^ 32 → es.length = n → (∀ i, i < n → readEntry (slice image (64 + 512 * i) 512) = es[i]?) →
      (es.map (·.label)).Nodup → (∀ l ∈ s.library.holds, s.findSpan l ≠ none → l ∈ es.map (·.label)) →
      let table := es.map (fun e => if e.mirror = .opened then { e with mirror := .interrupted } else e)
      Leaves (.ownAccessAnswered true data) s (answered { s.toPart with
        span := table
        library := { s.library with records := s.library.records.map (fun r =>
          match r.label.bind (fun l => table.find? (fun e => e.label == l)) with
          | some e => { r with state := some e.mirror }
          | none => r) } } .accepted n)))

/-! ## Encodings -/

/-- The packed stream by R2: every control byte with the bytes that follow it means its token, every token is written with its
control byte, a literal run costing its length and 1, a repeat or a copy 2 bytes, and a token that is written is read back
as itself whatever follows it. -/
def Obligations.TokensReadBack : Prop :=
  (∀ (c : Byte) (rest : List Byte),
    (c.toNat < 0x40 → c.toNat + 1 ≤ rest.length →
      parseToken (c :: rest) = .token (.lit (rest.take (c.toNat + 1))) (rest.drop (c.toNat + 1)))
    ∧ (0x40 ≤ c.toNat → c.toNat < 0x80 → ∀ v rest', rest = v :: rest' →
      parseToken (c :: rest) = .token (.rep (c.toNat - 0x40 + 3) v) rest')
    ∧ (0x80 ≤ c.toNat → ∀ d rest', rest = d :: rest' →
      parseToken (c :: rest) = .token (.copy ((c.toNat - 0x80) / 16 + 3) (c.toNat % 16 * 256 + d.toNat + 1)) rest'))
  ∧ (∀ bs : List Byte, 1 ≤ bs.length → bs.length ≤ 64 →
      (Token.lit bs).packed = byteOf (bs.length - 1) :: bs ∧ packedLength [.lit bs] = bs.length + 1)
  ∧ (∀ (n : Nat) (v : Byte), 3 ≤ n → n ≤ 66 →
      (Token.rep n v).packed = [byteOf (0x40 + n - 3), v] ∧ packedLength [.rep n v] = 2)
  ∧ (∀ l d : Nat, 3 ≤ l → l ≤ 10 → 1 ≤ d → d ≤ 4096 →
      (Token.copy l d).packed = [byteOf (0x80 + (l - 3) * 16 + (d - 1) / 256), byteOf ((d - 1) % 256)]
      ∧ packedLength [.copy l d] = 2)
  ∧ (∀ (t : Token) (rest : List Byte),
      (match t with
        | .lit bs => 1 ≤ bs.length ∧ bs.length ≤ 64
        | .rep n _ => 3 ≤ n ∧ n ≤ 66
        | .copy l d => 3 ≤ l ∧ l ≤ 10 ∧ 1 ≤ d ∧ d ≤ 4096) →
      parseToken (t.packed ++ rest) = .token t rest)

/-- A span entry whose numbers fit their fields, written into a span image by R191 and read back by R126, is itself. -/
def Obligations.SpanEntriesReadBack : Prop :=
  ∀ e : SpanEntry, e.valid = true → e.set < 2 ^ 16 → e.number < 2 ^ 16 → e.verified < 2 ^ 32 → e.absentFrom < 2 ^ 32 →
    (e.mirror = .opened ∨ e.mirror = .full ∨ e.mirror = .interrupted ∨ e.mirror = .suspect) →
    e.runs.length ≤ 8 → (∀ r ∈ e.runs, r.1 < 2 ^ 32 ∧ r.2 < 2 ^ 32) →
    (∀ r ∈ e.ranges, r.first.record < 2 ^ 32 ∧ r.first.index < 2 ^ 32 ∧ r.last.record < 2 ^ 32 ∧ r.last.index < 2 ^ 32
      ∧ ∀ c, r.continuation = some c → c.1 < 2 ^ 32 ∧ c.2 < 2 ^ 32) →
    readEntry (entryBytes e) = some e

/-! ## Invariants of every run -/

/-- The invariants hold right after a hard reset. -/
def Obligations.ResetMeetsInvariants : Prop :=
  State.reset.Settings ∧ State.reset.Labels ∧ State.reset.FaultedEmpty

/-- Every step keeps the settings in their ranges: hold limit and idle time 1 to 255, at most 32 different labels held, twin on
only with lane 1 present, only guarded codes pending, counts within their widths (R36, R123, R136, R178, R181, R140, R141). -/
def Obligations.StepKeepsSettings : Prop :=
  ∀ s t : State, s.Settings → step s = .next t → t.Settings

/-- Every step keeps each label in at most one location record, and the Span Table at 32 entries or less, all of different
labels (R112, R131, R132). -/
def Obligations.StepKeepsLabels : Prop :=
  ∀ s t : State, s.Labels → step s = .next t → t.Labels

/-- Every step keeps a FAULTED changer without queue and without a command (R145). -/
def Obligations.StepKeepsFaultedEmpty : Prop :=
  ∀ s t : State, s.FaultedEmpty → step s = .next t → t.FaultedEmpty

/-- The window table, the hold limit and the idle time change only by SET WINDOW, SET TIMING and RESET PART that the slot
takes, and a hard reset. A confirm, an answer to a Directive Word write or a directive write changes them only where RESET PART
is pending, and an answer to an own access only where it is the Parameter Block read of SET WINDOW or SET TIMING (R34, R36,
R179, R180, R187). -/
def Obligations.PathSettingsChangeOnlyByDirective : Prop :=
  ∀ (s t : State) (c : Instr), exec c s = .next t →
    (∀ b x y, c = .setWindow b x y → ¬ s.takes 0x01) → (∀ x y, c = .setTiming x y → ¬ s.takes 0x02) →
    (c = .resetPart → ¬ s.takes 0x7F) → (∀ d a l, c ≠ .resetnHigh d a l) →
    ((c = .confirm ∨ c = .directiveLost 0xC9 ∨ c = .unknownCode 0xC9 ∨ ∃ data, c = .passedThroughAnswer true data) →
      s.unit.slot ≠ .pending 0x7F) →
    (((∃ data, c = .parameterReadAnswered true data) ∨ ∃ data, c = .ownAccessAnswered true data) →
      ∀ code lost, s.unit.slot = .busy code lost .parameter → code ≠ 0x01 ∧ code ≠ 0x02) →
    t.path.windows = s.path.windows ∧ t.path.holdLimit = s.path.holdLimit ∧ t.path.idleTime = s.path.idleTime
end

