-- ==== Sys2Proof/Laws/PerInstr.lean ====
section
/-! SUPPORT. Per command: the Parameter Block that spells a directive, and that it reads back as that directive (R190). -/

namespace Sys2Proof.Laws

open Sys2Proof.Machine

/-- The code and the Parameter Block of a directive, written from R190; none for a command that no block spells. -/
def parameterBlock : Instr → Option (Nat × List Byte)
  | .setWindow role base size => some (0x01, padTo 64 (role :: zeros 3 ++ leBytes 4 base.toNat ++ leBytes 4 size.toNat))
  | .setTiming hold idle => some (0x02, padTo 64 (leBytes 2 hold.toNat ++ leBytes 2 idle.toNat))
  | .setAttn mode => some (0x03, padTo 64 ([mode]))
  | .setPool base count => some (0x10, padTo 64 (leBytes 4 base.toNat ++ [count]))
  | .openStream stream lane first => some (0x20, padTo 64 (stream :: lane :: zeros 2 ++ leBytes 4 first.toNat))
  | .openRecord stream length => some (0x21, padTo 64 (stream :: zeros 7 ++ leBytes 8 length.toNat))
  | .endRecord stream => some (0x22, padTo 64 ([stream]))
  | .flushStream stream => some (0x23, padTo 64 ([stream]))
  | .closeStream stream => some (0x24, padTo 64 ([stream]))
  | .append lane slot set => some (0x30, padTo 64 (lane :: slot :: leBytes 2 set.toNat))
  | .closeVolume lane => some (0x31, padTo 64 ([lane]))
  | .endRun lane => some (0x32, padTo 64 ([lane]))
  | .setTwin on primary => some (0x33, padTo 64 ([on, primary]))
  | .holdLane lane => some (0x40, padTo 64 ([lane]))
  | .releaseLane lane => some (0x41, padTo 64 ([lane]))
  | .cancelLane lane => some (0x42, padTo 64 ([lane]))
  | .unload lane => some (0x43, padTo 64 ([lane]))
  | .inventory which => some (0x50, padTo 64 ([which]))
  | .move source target => some (0x51, padTo 64 ([source, target]))
  | .setHold label on => some (0x52, padTo 64 (labelBytes label ++ [on]))
  | .clearHolds => some (0x53, padTo 64 ([]))
  | .retire label => some (0x54, padTo 64 (labelBytes label))
  | .restore lane stream set pref first last base size => some (0x60, padTo 64 (lane :: stream :: leBytes 2 set.toNat ++ pref :: zeros 3 ++ leBytes 4 first.toNat ++ leBytes 4 last.toNat
      ++ leBytes 4 base.toNat ++ leBytes 4 size.toNat))
  | .restoreContinue lane base size => some (0x61, padTo 64 (lane :: zeros 15 ++ leBytes 4 base.toNat ++ leBytes 4 size.toNat))
  | .verifyVolume lane label => some (0x62, padTo 64 (lane :: zeros 7 ++ labelBytes label))
  | .exportSpan addr => some (0x70, padTo 64 (leBytes 4 addr.toNat))
  | .importSpan addr => some (0x71, padTo 64 (leBytes 4 addr.toNat))
  | .forgetVolume label => some (0x72, padTo 64 (labelBytes label))
  | .clearErrors target => some (0x78, padTo 64 ([target]))
  | _ => none

/-- A command that a Parameter Block spells is what that block of 64 bytes reads back as. -/
def ParameterBlock.Statement (i : Instr) : Prop :=
  match parameterBlock i with
  | some (code, b) => b.length = 64 ∧ readParameters code b = some i
  | none => True

theorem ParameterBlock.resetnLow : Statement .resetnLow := trivial

theorem ParameterBlock.resetnHigh (dab : BitVec 4) (atm lnc : Bool) : Statement (.resetnHigh dab atm lnc) := trivial

theorem ParameterBlock.clientTransaction (t : Txn) : Statement (.clientTransaction t) := trivial

theorem ParameterBlock.passedThroughAnswer (ok : Bool) (data : List Byte) :
    Statement (.passedThroughAnswer ok data) := trivial

theorem ParameterBlock.conditionMaskWrite (strobes : BitVec 8) (value : BitVec 64) :
    Statement (.conditionMaskWrite strobes value) := trivial

theorem ParameterBlock.conditionWordRead (t : Txn) : Statement (.conditionWordRead t) := trivial

theorem ParameterBlock.intakeWrite (t : Txn) : Statement (.intakeWrite t) := trivial

theorem ParameterBlock.holdTimer (n : Nat) : Statement (.holdTimer n) := trivial

theorem ParameterBlock.encoderTakeByte (stream : Fin 8) : Statement (.encoderTakeByte stream) := trivial

theorem ParameterBlock.encoderDecision (stream : Fin 8) : Statement (.encoderDecision stream) := trivial

theorem ParameterBlock.idleTimer (stream : Fin 8) : Statement (.idleTimer stream) := trivial

theorem ParameterBlock.segmentAppend (lane : LaneId) : Statement (.segmentAppend lane) := trivial

theorem ParameterBlock.blockIdleTimer (lane : LaneId) : Statement (.blockIdleTimer lane) := trivial

theorem ParameterBlock.sendRead (t : Txn) : Statement (.sendRead t) := trivial

theorem ParameterBlock.poolReadAnswered (ok : Bool) (data : List Byte) :
    Statement (.poolReadAnswered ok data) := trivial

theorem ParameterBlock.partialReadTimer (lane : LaneId) : Statement (.partialReadTimer lane) := trivial

theorem ParameterBlock.returnWrite (t : Txn) : Statement (.returnWrite t) := trivial

theorem ParameterBlock.echoTimer (lane : LaneId) : Statement (.echoTimer lane) := trivial

theorem ParameterBlock.returnTimer (lane : LaneId) : Statement (.returnTimer lane) := trivial

theorem ParameterBlock.ownAccessAnswered (ok : Bool) (data : List Byte) :
    Statement (.ownAccessAnswered ok data) := trivial

theorem ParameterBlock.statusUpdateAnswered (ok : Bool) : Statement (.statusUpdateAnswered ok) := trivial

theorem ParameterBlock.parameterReadAnswered (ok : Bool) (data : List Byte) :
    Statement (.parameterReadAnswered ok data) := trivial

theorem ParameterBlock.outcomeWriteAnswered (ok : Bool) : Statement (.outcomeWriteAnswered ok) := trivial

theorem ParameterBlock.directiveLost (code : Byte) : Statement (.directiveLost code) := trivial

theorem ParameterBlock.emptyCode : Statement .emptyCode := trivial

theorem ParameterBlock.confirm : Statement .confirm := trivial

theorem ParameterBlock.unknownCode (code : Byte) : Statement (.unknownCode code) := trivial

theorem ParameterBlock.setWindow (role : Byte) (base size : BitVec 32) : Statement (.setWindow role base size) := by
  refine ⟨rfl, ?_⟩
  change some (Instr.setWindow role (BitVec.ofNat 32 (leNat (leBytes 4 base.toNat))) (BitVec.ofNat 32 (leNat (leBytes 4 size.toNat)))) = _
  simp only [ofNat_leBytes_32]

theorem ParameterBlock.setTiming (hold idle : BitVec 16) : Statement (.setTiming hold idle) := by
  refine ⟨rfl, ?_⟩
  change some (Instr.setTiming (BitVec.ofNat 16 (leNat (leBytes 2 hold.toNat))) (BitVec.ofNat 16 (leNat (leBytes 2 idle.toNat)))) = _
  simp only [ofNat_leBytes_16]

theorem ParameterBlock.setAttn (mode : Byte) : Statement (.setAttn mode) := ⟨rfl, rfl⟩

theorem ParameterBlock.setPool (base : BitVec 32) (count : Byte) : Statement (.setPool base count) := by
  refine ⟨rfl, ?_⟩
  change some (Instr.setPool (BitVec.ofNat 32 (leNat (leBytes 4 base.toNat))) count) = _
  simp only [ofNat_leBytes_32]

theorem ParameterBlock.openStream (stream lane : Byte) (first : BitVec 32) :
    Statement (.openStream stream lane first) := by
  refine ⟨rfl, ?_⟩
  change some (Instr.openStream stream lane (BitVec.ofNat 32 (leNat (leBytes 4 first.toNat)))) = _
  simp only [ofNat_leBytes_32]

theorem ParameterBlock.openRecord (stream : Byte) (length : BitVec 64) : Statement (.openRecord stream length) := by
  refine ⟨rfl, ?_⟩
  change some (Instr.openRecord stream (BitVec.ofNat 64 (leNat (leBytes 8 length.toNat)))) = _
  simp only [ofNat_leBytes_64]

theorem ParameterBlock.endRecord (stream : Byte) : Statement (.endRecord stream) := ⟨rfl, rfl⟩

theorem ParameterBlock.flushStream (stream : Byte) : Statement (.flushStream stream) := ⟨rfl, rfl⟩

theorem ParameterBlock.closeStream (stream : Byte) : Statement (.closeStream stream) := ⟨rfl, rfl⟩

theorem ParameterBlock.append (lane slot : Byte) (set : BitVec 16) : Statement (.append lane slot set) := by
  refine ⟨rfl, ?_⟩
  change some (Instr.append lane slot (BitVec.ofNat 16 (leNat (leBytes 2 set.toNat)))) = _
  simp only [ofNat_leBytes_16]

theorem ParameterBlock.closeVolume (lane : Byte) : Statement (.closeVolume lane) := ⟨rfl, rfl⟩

theorem ParameterBlock.endRun (lane : Byte) : Statement (.endRun lane) := ⟨rfl, rfl⟩

theorem ParameterBlock.setTwin (on primary : Byte) : Statement (.setTwin on primary) := ⟨rfl, rfl⟩

theorem ParameterBlock.holdLane (lane : Byte) : Statement (.holdLane lane) := ⟨rfl, rfl⟩

theorem ParameterBlock.releaseLane (lane : Byte) : Statement (.releaseLane lane) := ⟨rfl, rfl⟩

theorem ParameterBlock.cancelLane (lane : Byte) : Statement (.cancelLane lane) := ⟨rfl, rfl⟩

theorem ParameterBlock.unload (lane : Byte) : Statement (.unload lane) := ⟨rfl, rfl⟩

theorem ParameterBlock.inventory (which : Byte) : Statement (.inventory which) := ⟨rfl, rfl⟩

theorem ParameterBlock.move (source target : Byte) : Statement (.move source target) := ⟨rfl, rfl⟩

theorem ParameterBlock.setHold (label : Label) (on : Byte) : Statement (.setHold label on) := ⟨rfl, rfl⟩

theorem ParameterBlock.clearHolds : Statement .clearHolds := ⟨rfl, rfl⟩

theorem ParameterBlock.retire (label : Label) : Statement (.retire label) := ⟨rfl, rfl⟩

theorem ParameterBlock.restore (lane stream : Byte) (set : BitVec 16) (pref : Byte) (first last base size : BitVec 32) :
    Statement (.restore lane stream set pref first last base size) := by
  refine ⟨rfl, ?_⟩
  change some (Instr.restore lane stream (BitVec.ofNat 16 (leNat (leBytes 2 set.toNat))) pref (BitVec.ofNat 32 (leNat (leBytes 4 first.toNat))) (BitVec.ofNat 32 (leNat (leBytes 4 last.toNat))) (BitVec.ofNat 32 (leNat (leBytes 4 base.toNat))) (BitVec.ofNat 32 (leNat (leBytes 4 size.toNat)))) = _
  simp only [ofNat_leBytes_16, ofNat_leBytes_32]

theorem ParameterBlock.restoreContinue (lane : Byte) (base size : BitVec 32) :
    Statement (.restoreContinue lane base size) := by
  refine ⟨rfl, ?_⟩
  change some (Instr.restoreContinue lane (BitVec.ofNat 32 (leNat (leBytes 4 base.toNat))) (BitVec.ofNat 32 (leNat (leBytes 4 size.toNat)))) = _
  simp only [ofNat_leBytes_32]

theorem ParameterBlock.verifyVolume (lane : Byte) (label : Label) : Statement (.verifyVolume lane label) := ⟨rfl, rfl⟩

theorem ParameterBlock.exportSpan (addr : BitVec 32) : Statement (.exportSpan addr) := by
  refine ⟨rfl, ?_⟩
  change some (Instr.exportSpan (BitVec.ofNat 32 (leNat (leBytes 4 addr.toNat)))) = _
  simp only [ofNat_leBytes_32]

theorem ParameterBlock.importSpan (addr : BitVec 32) : Statement (.importSpan addr) := by
  refine ⟨rfl, ?_⟩
  change some (Instr.importSpan (BitVec.ofNat 32 (leNat (leBytes 4 addr.toNat)))) = _
  simp only [ofNat_leBytes_32]

theorem ParameterBlock.forgetVolume (label : Label) : Statement (.forgetVolume label) := ⟨rfl, rfl⟩

theorem ParameterBlock.clearErrors (target : Byte) : Statement (.clearErrors target) := ⟨rfl, rfl⟩

theorem ParameterBlock.resetPart : Statement .resetPart := trivial

theorem ParameterBlock.changerCommandStart : Statement .changerCommandStart := trivial

theorem ParameterBlock.moveAnswer (result : Byte) : Statement (.moveAnswer result) := trivial

theorem ParameterBlock.scanAnswer (result : Byte) (label : Option Label) :
    Statement (.scanAnswer result label) := trivial

theorem ParameterBlock.queryAnswer (result : Byte) (stateByte : Option Byte) :
    Statement (.queryAnswer result stateByte) := trivial

theorem ParameterBlock.answerTimer : Statement .answerTimer := trivial

theorem ParameterBlock.queryRetry : Statement .queryRetry := trivial

theorem ParameterBlock.magazineOpened (which : Byte) : Statement (.magazineOpened which) := trivial

theorem ParameterBlock.magazineClosed (which : Byte) : Statement (.magazineClosed which) := trivial

theorem ParameterBlock.mailSlotLoaded : Statement .mailSlotLoaded := trivial

theorem ParameterBlock.mailSlotEmptied : Statement .mailSlotEmptied := trivial

theorem ParameterBlock.mechanismFault : Statement .mechanismFault := trivial

theorem ParameterBlock.stray (kind : Byte) (params : List Byte) : Statement (.stray kind params) := trivial

theorem ParameterBlock.framingDiscard (byte : Byte) : Statement (.framingDiscard byte) := trivial

theorem ParameterBlock.frameGap : Statement .frameGap := trivial

theorem ParameterBlock.unpackSegment (lane : LaneId) : Statement (.unpackSegment lane) := trivial

theorem ParameterBlock.attnPulseEnd : Statement .attnPulseEnd := trivial

theorem ParameterBlock.commandFrameSent : Statement .commandFrameSent := trivial

end Sys2Proof.Laws
end

