-- ==== Sys2Proof/Laws/State.lean ====
section
/-! SUPPORT. The small lemmas of the state: what each update leaves of each field, by `rfl`, and reads after writes. -/

namespace Sys2Proof.Machine

/-! ## Pairs -/

@[simp] theorem pair_get_set_same {α : Type} (p : Pair α) (k : LaneId) (a : α) : (p.set k a).get k = a := by
  cases k <;> rfl
@[simp] theorem pair_get_set_other {α : Type} (p : Pair α) (k : LaneId) (a : α) : (p.set k a).get k.other = p.get k.other := by
  cases k <;> rfl
@[simp] theorem pair_get_other_set {α : Type} (p : Pair α) (k : LaneId) (a : α) : (p.set k.other a).get k = p.get k := by
  cases k <;> rfl
@[simp] theorem laneId_other_other (k : LaneId) : k.other.other = k := by cases k <;> rfl
theorem laneId_other_ne (k : LaneId) : k.other ≠ k := by cases k <;> decide

/-! ## Lanes -/

@[simp] theorem lane_setLane_same (s : Part) (k : LaneId) (l : Lane) : (s.setLane k l).lane k = l := by
  cases k <;> rfl
@[simp] theorem lane_setLane_other (s : Part) (k : LaneId) (l : Lane) : (s.setLane k l).lane k.other = s.lane k.other := by
  cases k <;> rfl
@[simp] theorem lane_other_setLane (s : Part) (k : LaneId) (l : Lane) : (s.setLane k.other l).lane k = s.lane k := by
  cases k <;> rfl
@[simp] theorem lane_modLane_same (s : Part) (k : LaneId) (f : Lane → Lane) : (s.modLane k f).lane k = f (s.lane k) := by
  cases k <;> rfl
@[simp] theorem lane_modLane_other (s : Part) (k : LaneId) (f : Lane → Lane) :
    (s.modLane k f).lane k.other = s.lane k.other := by
  cases k <;> rfl
@[simp] theorem setLane_path (s : Part) (k : LaneId) (l : Lane) : (s.setLane k l).path = s.path := rfl
@[simp] theorem setLane_bus (s : Part) (k : LaneId) (l : Lane) : (s.setLane k l).bus = s.bus := rfl
@[simp] theorem setLane_streams (s : Part) (k : LaneId) (l : Lane) : (s.setLane k l).streams = s.streams := rfl
@[simp] theorem setLane_pool (s : Part) (k : LaneId) (l : Lane) : (s.setLane k l).pool = s.pool := rfl
@[simp] theorem setLane_assembly (s : Part) (k : LaneId) (l : Lane) : (s.setLane k l).assembly = s.assembly := rfl
@[simp] theorem setLane_twin (s : Part) (k : LaneId) (l : Lane) : (s.setLane k l).twin = s.twin := rfl
@[simp] theorem setLane_span (s : Part) (k : LaneId) (l : Lane) : (s.setLane k l).span = s.span := rfl
@[simp] theorem setLane_library (s : Part) (k : LaneId) (l : Lane) : (s.setLane k l).library = s.library := rfl
@[simp] theorem setLane_changer (s : Part) (k : LaneId) (l : Lane) : (s.setLane k l).changer = s.changer := rfl
@[simp] theorem setLane_unit (s : Part) (k : LaneId) (l : Lane) : (s.setLane k l).unit = s.unit := rfl
@[simp] theorem setLane_pins (s : Part) (k : LaneId) (l : Lane) : (s.setLane k l).pins = s.pins := rfl
@[simp] theorem setLane_now (s : Part) (k : LaneId) (l : Lane) : (s.setLane k l).now = s.now := rfl
@[simp] theorem setLane_loc (s : Part) (k : LaneId) (l : Lane) (p : Loc) : (s.setLane k l).loc p = s.loc p := rfl
@[simp] theorem setLane_stream (s : Part) (k : LaneId) (l : Lane) (i : Fin 8) : (s.setLane k l).stream i = s.stream i := rfl
@[simp] theorem setLane_asm (s : Part) (k j : LaneId) (l : Lane) : (s.setLane k l).asm j = s.asm j := rfl

@[simp] theorem chosen_labelSent (r : Run) (l : Label) :
    (r.labelSent l).chosen = r.chosen.map (fun c => { c with labelled := c.labelled || c.label == l }) := rfl
@[simp] theorem labelSent_isOpen (r : Run) (l : Label) : (r.labelSent l).isOpen = r.isOpen := rfl
@[simp] theorem labelSent_role (r : Run) (l : Label) : (r.labelSent l).role = r.role := rfl
@[simp] theorem labelSent_set (r : Run) (l : Label) : (r.labelSent l).set = r.set := rfl
@[simp] theorem labelSent_nextVolume (r : Run) (l : Label) : (r.labelSent l).nextVolume = r.nextVolume := rfl
@[simp] theorem labelSent_namedSlot (r : Run) (l : Label) : (r.labelSent l).namedSlot = r.namedSlot := rfl
@[simp] theorem labelSent_stopAfter (r : Run) (l : Label) : (r.labelSent l).stopAfter = r.stopAfter := rfl
@[simp] theorem labelSent_ownCapacity (r : Run) (l : Label) : (r.labelSent l).ownCapacity = r.ownCapacity := rfl
@[simp] theorem labelSent_limit (r : Run) (l : Label) : (r.labelSent l).limit = r.limit := rfl
@[simp] theorem labelSent_warned (r : Run) (l : Label) : (r.labelSent l).warned = r.warned := rfl
@[simp] theorem labelSent_due (r : Run) (l : Label) : (r.labelSent l).due = r.due := rfl
@[simp] theorem labelSent_eovList (r : Run) (l : Label) : (r.labelSent l).eovList = r.eovList := rfl
@[simp] theorem labelSent_absentFrom (r : Run) (l : Label) : (r.labelSent l).absentFrom = r.absentFrom := rfl
@[simp] theorem labelSent_capacities (r : Run) (l : Label) : (r.labelSent l).capacities = r.capacities := rfl

/-- A LABEL sent changes nothing but the two lanes' run items, and these only where the lane has a volume. -/
theorem noteLabel_cases (s : Part) (k : LaneId) :
    ((s.lane k).volume = none ∧ s.noteLabel k = s)
    ∨ ∃ v, (s.lane k).volume = some v
        ∧ s.noteLabel k = (s.setLane k { s.lane k with run := (s.lane k).run.labelSent v.label }).setLane k.other
            { s.lane k.other with run := (s.lane k.other).run.labelSent v.label } := by
  unfold Part.noteLabel
  split
  · exact .inr ⟨_, ‹_›, by simp [Part.modLane]⟩
  · exact .inl ⟨‹_›, rfl⟩

/-- The chosen cartridge returned: nothing changes without one, with a LABEL sent on it or with its label in no OCCUPIED record;
else the record that holds its label becomes SCRATCH (R122). -/
theorem returnChosen_cases (s : Part) (k : LaneId) :
    s.returnChosen k = s
    ∨ ∃ c p, (s.lane k).run.chosen = some c ∧ c.labelled = false ∧ s.findLabel c.label = some p
        ∧ s.returnChosen k = (s.setLoc p { s.loc p with state := some .scratch }).touch .map := by
  cases h : (s.lane k).run.chosen with
  | none => simp [Part.returnChosen, h]
  | some c =>
    cases hl : c.labelled with
    | true => simp [Part.returnChosen, h, hl]
    | false =>
      cases hp : s.findLabel c.label with
      | none => simp [Part.returnChosen, Part.returnScratch, h, hl, hp]
      | some p => exact .inr ⟨c, p, rfl, hl, hp, by simp [Part.returnChosen, Part.returnScratch, h, hl, hp]⟩

/-! ## Streams -/

@[simp] theorem stream_setStream_same (s : Part) (i : Fin 8) (x : Stream) : (s.setStream i x).stream i = x := by
  simp [Part.setStream, Part.stream]
theorem stream_setStream_ne (s : Part) (i j : Fin 8) (x : Stream) (h : i ≠ j) :
    (s.setStream i x).stream j = s.stream j := by
  have h' : i.val ≠ j.val := fun e => h (Fin.ext e)
  simp [Part.setStream, Part.stream, h']
@[simp] theorem stream_modStream_same (s : Part) (i : Fin 8) (f : Stream → Stream) :
    (s.modStream i f).stream i = f (s.stream i) := by
  simp [Part.modStream]
@[simp] theorem setStream_lanes (s : Part) (i : Fin 8) (x : Stream) : (s.setStream i x).lanes = s.lanes := rfl
@[simp] theorem setStream_lane (s : Part) (i : Fin 8) (x : Stream) (k : LaneId) : (s.setStream i x).lane k = s.lane k := rfl
@[simp] theorem setStream_bus (s : Part) (i : Fin 8) (x : Stream) : (s.setStream i x).bus = s.bus := rfl
@[simp] theorem setStream_path (s : Part) (i : Fin 8) (x : Stream) : (s.setStream i x).path = s.path := rfl
@[simp] theorem setStream_pool (s : Part) (i : Fin 8) (x : Stream) : (s.setStream i x).pool = s.pool := rfl
@[simp] theorem setStream_asm (s : Part) (i : Fin 8) (x : Stream) (k : LaneId) : (s.setStream i x).asm k = s.asm k := rfl
@[simp] theorem setStream_unit (s : Part) (i : Fin 8) (x : Stream) : (s.setStream i x).unit = s.unit := rfl
@[simp] theorem setStream_loc (s : Part) (i : Fin 8) (x : Stream) (p : Loc) : (s.setStream i x).loc p = s.loc p := rfl

/-! ## Assembly, locations, sections -/

@[simp] theorem asm_setAsm_same (s : Part) (k : LaneId) (a : Assembly) : (s.setAsm k a).asm k = a := by cases k <;> rfl
@[simp] theorem asm_setAsm_other (s : Part) (k : LaneId) (a : Assembly) : (s.setAsm k a).asm k.other = s.asm k.other := by
  cases k <;> rfl
@[simp] theorem setAsm_lane (s : Part) (j k : LaneId) (a : Assembly) : (s.setAsm k a).lane j = s.lane j := rfl
@[simp] theorem setAsm_stream (s : Part) (k : LaneId) (a : Assembly) (i : Fin 8) : (s.setAsm k a).stream i = s.stream i := rfl
@[simp] theorem setAsm_pool (s : Part) (k : LaneId) (a : Assembly) : (s.setAsm k a).pool = s.pool := rfl
@[simp] theorem setAsm_bus (s : Part) (k : LaneId) (a : Assembly) : (s.setAsm k a).bus = s.bus := rfl

@[simp] theorem loc_setLoc_same (s : Part) (p : Loc) (r : LocRecord) : (s.setLoc p r).loc p = r := by
  simp [Part.setLoc, Part.loc]
theorem loc_setLoc_ne (s : Part) (p q : Loc) (r : LocRecord) (h : p ≠ q) : (s.setLoc p r).loc q = s.loc q := by
  have h' : p.val ≠ q.val := fun e => h (Fin.ext e)
  simp [Part.setLoc, Part.loc, h']
@[simp] theorem setLoc_lane (s : Part) (p : Loc) (r : LocRecord) (k : LaneId) : (s.setLoc p r).lane k = s.lane k := rfl
@[simp] theorem setLoc_span (s : Part) (p : Loc) (r : LocRecord) : (s.setLoc p r).span = s.span := rfl
@[simp] theorem setLoc_changer (s : Part) (p : Loc) (r : LocRecord) : (s.setLoc p r).changer = s.changer := rfl
@[simp] theorem setLoc_holds (s : Part) (p : Loc) (r : LocRecord) : (s.setLoc p r).library.holds = s.library.holds := rfl
@[simp] theorem setLoc_unit (s : Part) (p : Loc) (r : LocRecord) : (s.setLoc p r).unit = s.unit := rfl

@[simp] theorem latch_latched (s : Part) (c : Cond) : (s.latch c).unit.latched = s.unit.latched ||| (1#64 <<< c.bit) := rfl
@[simp] theorem latch_lane (s : Part) (c : Cond) (k : LaneId) : (s.latch c).lane k = s.lane k := rfl
@[simp] theorem latch_stream (s : Part) (c : Cond) (i : Fin 8) : (s.latch c).stream i = s.stream i := rfl
@[simp] theorem latch_bus (s : Part) (c : Cond) : (s.latch c).bus = s.bus := rfl
@[simp] theorem latch_path (s : Part) (c : Cond) : (s.latch c).path = s.path := rfl
@[simp] theorem latch_loc (s : Part) (c : Cond) (p : Loc) : (s.latch c).loc p = s.loc p := rfl
@[simp] theorem latch_changer (s : Part) (c : Cond) : (s.latch c).changer = s.changer := rfl
@[simp] theorem latch_slot (s : Part) (c : Cond) : (s.latch c).unit.slot = s.unit.slot := rfl
@[simp] theorem latch_outcome (s : Part) (c : Cond) : (s.latch c).unit.outcome = s.unit.outcome := rfl
@[simp] theorem touch_lane (s : Part) (x : Section) (k : LaneId) : (s.touch x).lane k = s.lane k := rfl
@[simp] theorem touch_stream (s : Part) (x : Section) (i : Fin 8) : (s.touch x).stream i = s.stream i := rfl
@[simp] theorem touch_bus (s : Part) (x : Section) : (s.touch x).bus = s.bus := rfl
@[simp] theorem touch_unit (s : Part) (x : Section) : (s.touch x).unit = s.unit := rfl
@[simp] theorem touch_path (s : Part) (x : Section) : (s.touch x).path = s.path := rfl
@[simp] theorem pushOwn_lane (s : Part) (as : List OwnAccess) (k : LaneId) : (s.pushOwn as).lane k = s.lane k := rfl
@[simp] theorem pushOwn_stream (s : Part) (as : List OwnAccess) (i : Fin 8) : (s.pushOwn as).stream i = s.stream i := rfl
@[simp] theorem pushOwn_unit (s : Part) (as : List OwnAccess) : (s.pushOwn as).unit = s.unit := rfl
@[simp] theorem pushOwn_path (s : Part) (as : List OwnAccess) : (s.pushOwn as).path = s.path := rfl
@[simp] theorem pushOwn_port (s : Part) (as : List OwnAccess) : (s.pushOwn as).bus.port = s.bus.port := rfl
@[simp] theorem pushOwn_waiting (s : Part) (as : List OwnAccess) : (s.pushOwn as).bus.waiting = s.bus.waiting := rfl
@[simp] theorem pushOwn_ownLine (s : Part) (as : List OwnAccess) : (s.pushOwn as).bus.ownLine = s.bus.ownLine ++ as := rfl
@[simp] theorem setWait_lane (s : Part) (id : Nat) (w : Wait) (k : LaneId) : (s.setWait id w).lane k = s.lane k := rfl
@[simp] theorem setWait_stream (s : Part) (id : Nat) (w : Wait) (i : Fin 8) : (s.setWait id w).stream i = s.stream i := rfl
@[simp] theorem setWait_unit (s : Part) (id : Nat) (w : Wait) : (s.setWait id w).unit = s.unit := rfl
@[simp] theorem setWait_path (s : Part) (id : Nat) (w : Wait) : (s.setWait id w).path = s.path := rfl

@[simp] theorem hold_lane (s : Part) (id : Nat) (w : Wait) (k : LaneId) : (s.hold id w).lane k = s.lane k := rfl
@[simp] theorem hold_stream (s : Part) (id : Nat) (w : Wait) (i : Fin 8) : (s.hold id w).stream i = s.stream i := rfl
@[simp] theorem hold_unit (s : Part) (id : Nat) (w : Wait) : (s.hold id w).unit = s.unit := rfl
@[simp] theorem hold_path (s : Part) (id : Nat) (w : Wait) : (s.hold id w).path = s.path := rfl
@[simp] theorem hold_force (s : Part) (id : Nat) (w : Wait) : (s.hold id w).force = s.force := rfl

/-! ## The settings in force and the level bits that rose -/

@[simp] theorem enforce_force (s : Part) : s.enforce.force = s.settings := rfl
@[simp] theorem enforce_path (s : Part) : s.enforce.path = s.path := rfl
@[simp] theorem enforce_pool (s : Part) : s.enforce.pool = s.pool := rfl
@[simp] theorem enforce_bus (s : Part) : s.enforce.bus = s.bus := rfl
@[simp] theorem enforce_unit (s : Part) : s.enforce.unit = s.unit := rfl
@[simp] theorem enforce_rose (s : Part) : s.enforce.rose = s.rose := rfl
@[simp] theorem enforce_lane (s : Part) (k : LaneId) : s.enforce.lane k = s.lane k := rfl
@[simp] theorem enforce_stream (s : Part) (i : Fin 8) : s.enforce.stream i = s.stream i := rfl
@[simp] theorem enforce_settings (s : Part) : s.enforce.settings = s.settings := rfl
@[simp] theorem enforce_enforce (s : Part) : s.enforce.enforce = s.enforce := rfl
@[simp] theorem rise_rose (s : Part) (n : Nat) : (s.rise n).rose = s.rose ||| (1#64 <<< n) := rfl
@[simp] theorem rise_force (s : Part) (n : Nat) : (s.rise n).force = s.force := rfl
@[simp] theorem rise_path (s : Part) (n : Nat) : (s.rise n).path = s.path := rfl
@[simp] theorem rise_bus (s : Part) (n : Nat) : (s.rise n).bus = s.bus := rfl
@[simp] theorem rise_unit (s : Part) (n : Nat) : (s.rise n).unit = s.unit := rfl
@[simp] theorem rise_lane (s : Part) (n : Nat) (k : LaneId) : (s.rise n).lane k = s.lane k := rfl
@[simp] theorem rise_stream (s : Part) (n : Nat) (i : Fin 8) : (s.rise n).stream i = s.stream i := rfl
@[simp] theorem rise_changer (s : Part) (n : Nat) : (s.rise n).changer = s.changer := rfl
@[simp] theorem setLane_force (s : Part) (k : LaneId) (l : Lane) : (s.setLane k l).force = s.force := rfl
@[simp] theorem setLane_rose (s : Part) (k : LaneId) (l : Lane) : (s.setLane k l).rose = s.rose := rfl
@[simp] theorem setStream_force (s : Part) (i : Fin 8) (x : Stream) : (s.setStream i x).force = s.force := rfl
@[simp] theorem setStream_rose (s : Part) (i : Fin 8) (x : Stream) : (s.setStream i x).rose = s.rose := rfl
@[simp] theorem setAsm_force (s : Part) (k : LaneId) (a : Assembly) : (s.setAsm k a).force = s.force := rfl
@[simp] theorem setLoc_force (s : Part) (p : Loc) (r : LocRecord) : (s.setLoc p r).force = s.force := rfl
@[simp] theorem latch_force (s : Part) (c : Cond) : (s.latch c).force = s.force := rfl
@[simp] theorem latch_rose (s : Part) (c : Cond) : (s.latch c).rose = s.rose := rfl
@[simp] theorem touch_force (s : Part) (x : Section) : (s.touch x).force = s.force := rfl
@[simp] theorem touch_rose (s : Part) (x : Section) : (s.touch x).rose = s.rose := rfl
@[simp] theorem pushOwn_force (s : Part) (as : List OwnAccess) : (s.pushOwn as).force = s.force := rfl
@[simp] theorem pushOwn_rose (s : Part) (as : List OwnAccess) : (s.pushOwn as).rose = s.rose := rfl
@[simp] theorem setWait_force (s : Part) (id : Nat) (w : Wait) : (s.setWait id w).force = s.force := rfl
@[simp] theorem setDirSlot_slot (s : Part) (x : DirSlot) : (s.setDirSlot x).unit.slot = x := rfl
@[simp] theorem setDirSlot_pendingFrom (s : Part) (x : DirSlot) : (s.setDirSlot x).unit.pendingFrom = s.unit.pendingFrom := rfl
@[simp] theorem enterPending_slot (s : Part) (c : Nat) : (s.enterPending c).unit.slot = .pending c := rfl
@[simp] theorem enterPending_pendingFrom (s : Part) (c : Nat) : (s.enterPending c).unit.pendingFrom = s.bus.nextId := rfl
@[simp] theorem enterPending_bus (s : Part) (c : Nat) : (s.enterPending c).bus = s.bus := rfl
@[simp] theorem enterPending_path (s : Part) (c : Nat) : (s.enterPending c).path = s.path := rfl
@[simp] theorem enterPending_force (s : Part) (c : Nat) : (s.enterPending c).force = s.force := rfl
@[simp] theorem enterPending_lane (s : Part) (c : Nat) (k : LaneId) : (s.enterPending c).lane k = s.lane k := rfl
@[simp] theorem enterPending_stream (s : Part) (c : Nat) (i : Fin 8) : (s.enterPending c).stream i = s.stream i := rfl
@[simp] theorem readBlock_slot (s : Part) (c : Nat) (l : Bool) : (s.readBlock c l).unit.slot = .busy c l .parameter := rfl
@[simp] theorem readBlock_waiting (s : Part) (c : Nat) (l : Bool) : (s.readBlock c l).bus.waiting = s.bus.waiting := rfl
@[simp] theorem readBlock_port (s : Part) (c : Nat) (l : Bool) : (s.readBlock c l).bus.port = s.bus.port := rfl
@[simp] theorem readBlock_path (s : Part) (c : Nat) (l : Bool) : (s.readBlock c l).path = s.path := rfl
@[simp] theorem readBlock_force (s : Part) (c : Nat) (l : Bool) : (s.readBlock c l).force = s.force := rfl
@[simp] theorem readBlock_lane (s : Part) (c : Nat) (l : Bool) (k : LaneId) : (s.readBlock c l).lane k = s.lane k := rfl
@[simp] theorem readBlock_stream (s : Part) (c : Nat) (l : Bool) (i : Fin 8) : (s.readBlock c l).stream i = s.stream i := rfl
@[simp] theorem setDirSlot_outcome (s : Part) (x : DirSlot) : (s.setDirSlot x).unit.outcome = s.unit.outcome := rfl
@[simp] theorem setDirSlot_force (s : Part) (x : DirSlot) : (s.setDirSlot x).force = s.force := rfl
@[simp] theorem setDirSlot_bus (s : Part) (x : DirSlot) : (s.setDirSlot x).bus = s.bus := rfl
@[simp] theorem setDirSlot_path (s : Part) (x : DirSlot) : (s.setDirSlot x).path = s.path := rfl
@[simp] theorem setDirSlot_lane (s : Part) (x : DirSlot) (k : LaneId) : (s.setDirSlot x).lane k = s.lane k := rfl
@[simp] theorem setDirSlot_stream (s : Part) (x : DirSlot) (i : Fin 8) : (s.setDirSlot x).stream i = s.stream i := rfl

/-! ## The same place written twice -/

@[simp] theorem pair_set_set {α : Type} (p : Pair α) (k : LaneId) (a b : α) : (p.set k a).set k b = p.set k b := by
  cases k <;> rfl
@[simp] theorem setLane_setLane (s : Part) (k : LaneId) (a b : Lane) : (s.setLane k a).setLane k b = s.setLane k b := by
  cases k <;> rfl
@[simp] theorem setAsm_setAsm (s : Part) (k : LaneId) (a b : Assembly) : (s.setAsm k a).setAsm k b = s.setAsm k b := by
  cases k <;> rfl
@[simp] theorem setStream_setStream (s : Part) (i : Fin 8) (a b : Stream) :
    (s.setStream i a).setStream i b = s.setStream i b := by
  simp [Part.setStream]
@[simp] theorem setLoc_setLoc (s : Part) (p : Loc) (a b : LocRecord) : (s.setLoc p a).setLoc p b = s.setLoc p b := by
  simp [Part.setLoc]
@[simp] theorem setBuffer_setBuffer (s : Part) (b : Nat) (x y : Buffer) :
    (s.setBuffer b x).setBuffer b y = s.setBuffer b y := by
  simp [Part.setBuffer]
theorem buffer_setBuffer_same (s : Part) (b : Nat) (x : Buffer) (h : b < s.pool.buffers.length) :
    (s.setBuffer b x).buffer b = x := by
  simp [Part.setBuffer, Part.buffer, h]

end Sys2Proof.Machine
end

