-- ==== Sys2Proof/Laws/Still.lean ====
section
/-! SUPPORT. What the work of streams, pool, lanes, volumes and jobs leaves alone: one lemma per shared operation. -/

namespace Sys2Proof.Machine

/-! ## Updates -/

@[simp] theorem setLane_still (s : Part) (k : LaneId) (l : Lane) : (s.setLane k l).still = s.still := rfl

@[simp] theorem modLane_still (s : Part) (k : LaneId) (f : Lane → Lane) : (s.modLane k f).still = s.still := rfl

@[simp] theorem setStream_still (s : Part) (i : Fin 8) (x : Stream) : (s.setStream i x).still = s.still := rfl

@[simp] theorem modStream_still (s : Part) (i : Fin 8) (f : Stream → Stream) : (s.modStream i f).still = s.still := rfl

@[simp] theorem setAsm_still (s : Part) (k : LaneId) (a : Assembly) : (s.setAsm k a).still = s.still := rfl

@[simp] theorem modAsm_still (s : Part) (k : LaneId) (f : Assembly → Assembly) : (s.modAsm k f).still = s.still := rfl

@[simp] theorem latch_still (s : Part) (c : Cond) : (s.latch c).still = s.still := rfl

@[simp] theorem touch_still (s : Part) (x : Section) : (s.touch x).still = s.still := rfl

@[simp] theorem rise_still (s : Part) (n : Nat) : (s.rise n).still = s.still := rfl

@[simp] theorem pushOwn_still (s : Part) (as : List OwnAccess) : (s.pushOwn as).still = s.still := rfl

@[simp] theorem pushWrites_still (s : Part) (kind : Bool → OwnKind) (a : Nat) (bs : List Byte) :
    (s.pushWrites kind a bs).still = s.still := rfl

@[simp] theorem dropOwn_still (s : Part) (p : OwnKind → Bool) : (s.dropOwn p).still = s.still := rfl

@[simp] theorem setWait_still (s : Part) (id : Nat) (w : Wait) : (s.setWait id w).still = s.still := rfl

@[simp] theorem hold_still (s : Part) (id : Nat) (w : Wait) : (s.hold id w).still = s.still := rfl

@[simp] theorem setPool_still (s : Part) (p : Pool) : ({ s with pool := p } : Part).still = s.still := rfl

@[simp] theorem setBuffer_still (s : Part) (b : Nat) (x : Buffer) : (s.setBuffer b x).still = s.still := rfl

@[simp] theorem leaveWaiters_still (s : Part) (k : LaneId) : (s.leaveWaiters k).still = s.still := rfl

@[simp] theorem choose_still (s : Part) : s.choose.2.still = s.still := rfl

@[simp] theorem fail_still (s : Part) (e : FailEntry) (a b : Option Loc) (c : FailCause) :
    (s.fail e a b c).still = s.still := by
  unfold Part.fail
  dsimp only
  split <;> rfl

@[simp] theorem failJob_still (s : Part) (j : Job) (c : FailCause) : (s.failJob j c).still = s.still :=
  fail_still s _ _ _ c

@[simp] theorem enqueue_still (s : Part) (j : Job) : (s.enqueue j).still = s.still := rfl

/-- The still part of a choice. -/

@[simp] theorem ite_still (c : Prop) [Decidable c] (a b : Part) :
    (if c then a else b).still = if c then a.still else b.still := apply_ite Part.still c a b

/-- A location record replaced by one of the same label. -/
theorem setLoc_still (s : Part) (p : Loc) (r : LocRecord) (h : r.label = (s.loc p).label) :
    (s.setLoc p r).still = s.still := by
  have : (s.library.records.set p r).map (·.label) = s.library.records.map (·.label) := by
    apply Vector.ext
    intro j hj
    by_cases e : p.val = j
    · subst e; simp [h, Part.loc]
    · simp [e]
  simp [Part.still, Part.setLoc, this]

/-- A span entry changed but for its label. -/
theorem modSpan_still (s : Part) (l : Label) (f : SpanEntry → SpanEntry) (h : ∀ e, (f e).label = e.label) :
    (s.modSpan l f).still = s.still := by
  have : ((s.span.map fun e => if e.label = l then f e else e).map (·.label)) = s.span.map (·.label) := by
    rw [List.map_map]
    apply List.map_congr_left
    intro e _
    simp only [Function.comp]
    split <;> simp [h]
  simp [Part.still, Part.modSpan, this]

/-- A fold of steps that leave the still part leaves it. -/
theorem foldl_still {α : Type} (f : Part → α → Part) (h : ∀ s x, (f s x).still = s.still) (xs : List α) (s : Part) :
    (xs.foldl f s).still = s.still := by
  induction xs generalizing s with
  | nil => rfl
  | cons x xs ih => rw [List.foldl_cons, ih, h]

@[simp] theorem okay_still (s : Part) (id : Nat) (data : List Byte) : (s.okay id data).still = s.still := by
  unfold Part.okay
  split <;> simp

@[simp] theorem memoryFault_still (s : Part) (id : Nat) : (s.memoryFault id).still = s.still := by
  unfold Part.memoryFault
  split <;> simp

@[simp] theorem refuse_still (s : Part) (id : Nat) (r : Reason) (range : Range) :
    (s.refuse id r range).still = s.still := by
  unfold Part.refuse
  split
  · dsimp only
    exact setWait_still s id _
  · rfl

@[simp] theorem takeIntake_still (s : Part) (i : Fin 8) (bytes : List Byte) :
    (s.takeIntake i bytes).still = s.still := by
  rfl

@[simp] theorem rejudgeFrom_still (i : Fin 8) (xs : List (Waiting × Nat)) (s : Part) :
    (rejudgeFrom i xs s).still = s.still := by
  induction xs generalizing s with
  | nil => rfl
  | cons x xs ih =>
    obtain ⟨x, off⟩ := x
    unfold rejudgeFrom
    split <;> simp [ih]

@[simp] theorem rejudge_still (s : Part) (i : Fin 8) : (s.rejudge i).still = s.still := by
  simp [Part.rejudge]

@[simp] theorem offer_still (s : Part) (i : Fin 8) : (s.offer i).still = s.still := by
  unfold Part.offer
  split <;> simp

@[simp] theorem closeSegment_still (s : Part) (i : Fin 8) (g : Segment) : (s.closeSegment i g).still = s.still := by
  simp [Part.closeSegment]

@[simp] theorem closeOpenSegment_still (s : Part) (i : Fin 8) : (s.closeOpenSegment i).still = s.still := by
  unfold Part.closeOpenSegment
  split <;> simp

@[simp] theorem faultStream_still (s : Part) (i : Fin 8) (c : StreamCause) : (s.faultStream i c).still = s.still := by
  simp [Part.faultStream]

@[simp] theorem placeItem_still (s : Part) (i : Fin 8) (it : Item) : (s.placeItem i it).1.still = s.still := by
  unfold Part.placeItem
  dsimp only
  repeat' split
  all_goals simp

@[simp] theorem placeItems_still (i : Fin 8) (xs : List Item) (s : Part) :
    (Part.placeItems i xs s).still = s.still := by
  induction xs generalizing s with
  | nil => rfl
  | cons it xs ih =>
    unfold Part.placeItems
    have h := placeItem_still s i it
    split <;> rename_i e <;> rw [e] at h <;> (try split) <;> simp_all

@[simp] theorem takeBuffer_still (s : Part) (k : LaneId) : (s.takeBuffer k).still = s.still := by
  unfold Part.takeBuffer
  split <;> simp

@[simp] theorem handBlock_still (b : Nat) (s : Part) (k : LaneId) : (Part.handBlock b s k).still = s.still := by
  rfl

@[simp] theorem closeBlock_still (s : Part) (k : LaneId) : (s.closeBlock k).still = s.still := by
  unfold Part.closeBlock
  split
  · rfl
  · dsimp only
    rw [modAsm_still, foldl_still (Part.handBlock _) (fun s x => handBlock_still _ s x)]
    rfl

@[simp] theorem flushTaken_still (s : Part) (k : LaneId) : (s.flushTaken k).still = s.still := by
  unfold Part.flushTaken
  split <;> simp

@[simp] theorem appendPiece_still (s : Part) (k : LaneId) (b : Nat) (i : Fin 8) (g : Segment) :
    (s.appendPiece k b i g).still = s.still := by
  rfl

@[simp] theorem reportAppended_still (s : Part) (i : Fin 8) (index : Nat) (last : Bool) :
    (s.reportAppended i index last).still = s.still := by
  simp [Part.reportAppended]

@[simp] theorem appendFinal_still (s : Part) (k : LaneId) (b : Nat) (i : Fin 8) (g : Segment) :
    (s.appendFinal k b i g).still = s.still := by
  simp [Part.appendFinal]

@[simp] theorem withBlock_still (s : Part) (k : LaneId) : (s.withBlock k).still = s.still := by
  unfold Part.withBlock
  split <;> simp

@[simp] theorem appendToNew_still (s : Part) (k : LaneId) (i : Fin 8) (g : Segment) :
    (s.appendToNew k i g).still = s.still := by
  unfold Part.appendToNew
  dsimp only
  split <;> simp

@[simp] theorem dropLimited_still (s : Part) (k : LaneId) (i : Fin 8) : (s.dropLimited k i).still = s.still := by
  simp [Part.dropLimited]

@[simp] theorem workHead_still (s : Part) (k : LaneId) : (s.workHead k).still = s.still := by
  unfold Part.workHead
  dsimp only
  repeat' split
  all_goals simp

@[simp] theorem blockIdleTimer_still (s : Part) (k : LaneId) : (s.blockIdleTimer k).still = s.still := by
  simp [Part.blockIdleTimer]

@[simp] theorem giveFrom_still (ks : List LaneId) (s : Part) : (giveFrom ks s).still = s.still := by
  induction ks generalizing s with
  | nil => rfl
  | cons k ks ih =>
    unfold giveFrom
    split <;> simp [ih]

@[simp] theorem release_still (s : Part) (bs : List Nat) : (s.release bs).still = s.still := by
  unfold Part.release
  dsimp only
  rw [giveFrom_still]
  exact foldl_still (fun (s : Part) b => s.setBuffer b Buffer.blank) (fun s b => rfl) bs s

@[simp] theorem setCopy_still (s : Part) (k : LaneId) (b : Nat) (c : CopyState) :
    (s.setCopy k b c).still = s.still := by
  rfl

@[simp] theorem copyDone_still (s : Part) (k : LaneId) (b : Nat) : (s.copyDone k b).still = s.still := by
  simp [Part.copyDone]

@[simp] theorem cancelClaims_still (s : Part) (k : LaneId) : (s.cancelClaims k).still = s.still := by
  unfold Part.cancelClaims
  dsimp only
  rw [release_still]
  rfl

@[simp] theorem endIfTaken_still (s : Part) (i : Fin 8) : (s.endIfTaken i).still = s.still := by
  simp [Part.endIfTaken]

@[simp] theorem encoderTakeByte_still (s : Part) (i : Fin 8) : (s.encoderTakeByte i).still = s.still := by
  unfold Part.encoderTakeByte
  dsimp only
  split <;> simp

@[simp] theorem encoderDecision_still (s : Part) (i : Fin 8) : (s.encoderDecision i).still = s.still := by
  simp [Part.encoderDecision]

@[simp] theorem idleTimer_still (s : Part) (i : Fin 8) : (s.idleTimer i).still = s.still := by
  simp [Part.idleTimer]

@[simp] theorem holdTimer_still (s : Part) (n : Nat) : (s.holdTimer n).still = s.still := by
  unfold Part.holdTimer
  dsimp only
  split <;> simp

@[simp] theorem unknownAt_still (s : Part) (p : Loc) : (s.unknownAt p).still = s.still := by
  exact setLoc_still s p _ rfl

@[simp] theorem setCartridge_still (s : Part) (l : Label) (c : CartState) : (s.setCartridge l c).still = s.still := by
  unfold Part.setCartridge
  split
  · exact setLoc_still _ _ _ rfl
  · rfl

@[simp] theorem setVerified_still (s : Part) (l : Label) (v : Bool) : (s.setVerified l v).still = s.still := by
  unfold Part.setVerified
  split
  · exact setLoc_still _ _ _ rfl
  · rfl

@[simp] theorem returnScratch_still (s : Part) (l : Label) : (s.returnScratch l).still = s.still := by
  unfold Part.returnScratch
  split
  · exact (touch_still _ _).trans (setLoc_still _ _ _ rfl)
  · rfl

@[simp] theorem returnChosen_still (s : Part) (k : LaneId) : (s.returnChosen k).still = s.still := by
  obtain h | ⟨_, _, _, _, h, e⟩ := returnChosen_cases s k
  · rw [h]
  · rw [e]
    exact (touch_still _ _).trans (setLoc_still _ _ _ rfl)

@[simp] theorem follow_still (s : Part) (k : LaneId) : (s.follow k).still = s.still := by
  simp [Part.follow]

@[simp] theorem rest_still (s : Part) (k : LaneId) : (s.rest k).still = s.still := by
  unfold Part.rest
  dsimp only
  split <;> rfl

@[simp] theorem modRestore_still (s : Part) (k : LaneId) (f : RestoreJob → RestoreJob) :
    (s.modRestore k f).still = s.still := by
  rfl

@[simp] theorem modVerify_still (s : Part) (k : LaneId) (f : VerifyJob → VerifyJob) :
    (s.modVerify k f).still = s.still := by
  rfl

@[simp] theorem modAccess_still (s : Part) (k : LaneId) (f : Access → Access) : (s.modAccess k f).still = s.still := by
  rfl

@[simp] theorem setSlot_still (s : Part) (k : LaneId) (t : Fin 8) (x : Slot) : (s.setSlot k t x).still = s.still := by
  rfl

@[simp] theorem clearUnpack_still (s : Part) (k : LaneId) : (s.clearUnpack k).still = s.still := by
  rfl

@[simp] theorem freeBuffer_still (s : Part) (k : LaneId) : (s.freeBuffer k).still = s.still := by
  rfl

@[simp] theorem output_still (s : Part) (k : LaneId) (bytes : List Byte) : (s.output k bytes).still = s.still := by
  unfold Part.output
  split <;> simp

@[simp] theorem reportOpen_still (s : Part) (k : LaneId) (record : Nat) (produced : Nat) (r : RecResult) (rewrite : Bool) :
    (s.reportOpen k record produced r rewrite).still = s.still := by
  unfold Part.reportOpen
  repeat' split
  all_goals simp

@[simp] theorem reportShort_still (s : Part) (k : LaneId) (record : Nat) (r : RecResult) :
    (s.reportShort k record r).still = s.still := by
  simp [Part.reportShort]

@[simp] theorem waitDest_still (s : Part) (k : LaneId) : (s.waitDest k).still = s.still := by
  rfl

@[simp] theorem reportUnseen_still (k : LaneId) (r : RecResult) (skip : Option Nat) (n : Nat) (s : Part) :
    (reportUnseen k r skip n s).1.still = s.still := by
  induction n generalizing s with
  | zero => rfl
  | succ n ih =>
    unfold reportUnseen
    repeat' (first | (simp; done) | (simp_all; done) | split)

@[simp] theorem nameRestore_still (s : Part) (k : LaneId) (r : RecResult) (rewrite : Bool) :
    (s.nameRestore k r rewrite).still = s.still := by
  unfold Part.nameRestore
  repeat' split
  all_goals simp

@[simp] theorem beginWalk_still (s : Part) (k : LaneId) (used : Nat) : (s.beginWalk k used).still = s.still := by
  simp [Part.beginWalk]

@[simp] theorem walkPast_still (s : Part) (k : LaneId) (w : Walk) (h : SegHead) :
    (s.walkPast k w h).still = s.still := by
  simp [Part.walkPast]

@[simp] theorem decodeRestore_still (s : Part) (k : LaneId) (t : Fin 8) (w : Walk) (h : SegHead) (d : Decoding) (p : Place) :
    (s.decodeRestore k t w h d p).still = s.still := by
  unfold Part.decodeRestore
  dsimp only
  split <;> simp

@[simp] theorem decodeOn_still (s : Part) (k : LaneId) (t : Fin 8) (w : Walk) (h : SegHead) (d : Decoding) (p : Place) :
    (s.decodeOn k t w h d p).still = s.still := by
  unfold Part.decodeOn
  split <;> simp

@[simp] theorem settleGap_still (s : Part) (k : LaneId) (t : Fin 8) (h : SegHead) (gap : Bool) :
    (s.settleGap k t h gap).still = s.still := by
  unfold Part.settleGap
  split <;> simp

@[simp] theorem handRestore_still (s : Part) (k : LaneId) (t : Fin 8) (w : Walk) (h : SegHead) (bs : List Byte) (gap : Bool) :
    (s.handRestore k t w h bs gap).still = s.still := by
  unfold Part.handRestore
  dsimp only
  repeat' split
  all_goals simp

@[simp] theorem passOn_still (s : Part) (k : LaneId) (t : Fin 8) (w : Walk) (h : SegHead) (bs : List Byte) (gap : Bool) :
    (s.passOn k t w h bs gap).still = s.still := by
  unfold Part.passOn
  dsimp only
  split <;> rename_i e <;> have h := congrArg (fun x => x.1.still) e <;> simpa using h.symm

@[simp] theorem unpackRestore_still (s : Part) (k : LaneId) (j : RestoreJob) (w : Walk) (block : List Byte) :
    (s.unpackRestore k j w block).still = s.still := by
  unfold Part.unpackRestore
  dsimp only
  repeat' split
  all_goals simp

@[simp] theorem nameVerify_still (s : Part) (k : LaneId) (t : Fin 8) (r : RecResult) :
    (s.nameVerify k t r).still = s.still := by
  unfold Part.nameVerify
  split <;> simp

@[simp] theorem handVerify_still (s : Part) (k : LaneId) (t : Fin 8) (h : SegHead) (bs : List Byte) :
    (s.handVerify k t h bs).still = s.still := by
  unfold Part.handVerify
  dsimp only
  repeat' split
  all_goals simp

@[simp] theorem unpackVerify_still (s : Part) (k : LaneId) (w : Walk) (block : List Byte) :
    (s.unpackVerify k w block).still = s.still := by
  unfold Part.unpackVerify
  dsimp only
  split <;> simp

@[simp] theorem releaseServed_still (s : Part) (k : LaneId) : (s.releaseServed k).still = s.still := by
  rfl

@[simp] theorem dropPending_still (s : Part) (k : LaneId) : (s.dropPending k).still = s.still := by
  rfl

@[simp] theorem endOrder_still (s : Part) (k : LaneId) : (s.endOrder k).still = s.still := by
  rfl

@[simp] theorem putBack_still (s : Part) (k : LaneId) (raise : Nat) : (s.putBack k raise).still = s.still := by
  unfold Part.putBack
  dsimp only
  rw [modLane_still]
  exact foldl_still _ (fun s e => setCopy_still s k _ _) _ s

@[simp] theorem carry_still (s : Part) (k : LaneId) : (s.carry k).still = s.still := by
  rfl

@[simp] theorem setLimits_still (s : Part) (g : Nat → Nat → Nat) : (s.setLimits g).still = s.still := by
  simp [Part.setLimits]
@[simp] theorem relimit_still (s : Part) : (s.relimit).still = s.still := by
  simp [Part.relimit]

@[simp] theorem leaveVolume_still (s : Part) (k : LaneId) : (s.leaveVolume k).still = s.still := by
  simp [Part.leaveVolume]

@[simp] theorem mirror_still (s : Part) (k : LaneId) (f : SpanEntry → SpanEntry) (hf : ∀ e, (f e).label = e.label) :
    (s.mirror k f).still = s.still := by
  unfold Part.mirror
  split
  · exact modSpan_still _ _ _ (fun e => by simp [hf])
  · rfl

@[simp] theorem markChosen_still (s : Part) (k : LaneId) (c : CartState) : (s.markChosen k c).still = s.still := by
  unfold Part.markChosen
  split <;> simp

@[simp] theorem interruptVolume_still (s : Part) (k : LaneId) : (s.interruptVolume k).still = s.still := by
  simp [Part.interruptVolume]

@[simp] theorem endLending_still (s : Part) (k : LaneId) : (s.endLending k).still = s.still := by
  unfold Part.endLending
  split <;> simp

@[simp] theorem orphan_still (s : Part) (k : LaneId) : (s.orphan k).still = s.still := by
  unfold Part.orphan
  split <;> simp

@[simp] theorem loanDone_still (s : Part) (k : LaneId) (id : Nat) : (s.loanDone k id).still = s.still := by
  simp [Part.loanDone]

@[simp] theorem withdraw_still (s : Part) (k : LaneId) : (s.withdraw k).still = s.still := by
  unfold Part.withdraw
  dsimp only
  rw [foldl_still _ (fun s x => loanDone_still s k _)]
  rfl

@[simp] theorem dropAccess_still (s : Part) (k : LaneId) : (s.dropAccess k).still = s.still := by
  simp [Part.dropAccess]

@[simp] theorem restoreOver_still (s : Part) (k : LaneId) (r : JobResult) : (s.restoreOver k r).still = s.still := by
  unfold Part.restoreOver
  split <;> simp

@[simp] theorem verifyOver_still (s : Part) (k : LaneId) (r : JobResult) : (s.verifyOver k r).still = s.still := by
  unfold Part.verifyOver
  split <;> simp

@[simp] theorem endJobs_still (s : Part) (k : LaneId) (r : JobResult) : (s.endJobs k r).still = s.still := by
  have h : ∀ s : Part, ((s.decodings k).foldl (fun s (x : Fin 8 × Decoding) => s.nameVerify k x.1 .incomplete) s).still
      = s.still := fun s => foldl_still _ (fun s x => nameVerify_still s k _ _) _ s
  unfold Part.endJobs
  dsimp only
  repeat' split
  all_goals simp [h]

@[simp] theorem laneFault_still (s : Part) (k : LaneId) (code : LaneCode) : (s.laneFault k code).still = s.still := by
  simp [Part.laneFault]

@[simp] theorem request_still (s : Part) (k : LaneId) (j : Job) : (s.request k j).still = s.still := by
  unfold Part.request
  repeat' split
  all_goals simp

@[simp] theorem startUnload_still (s : Part) (k : LaneId) : (s.startUnload k).still = s.still := by
  rfl

@[simp] theorem enterLabelling_still (s : Part) (k : LaneId) : (s.enterLabelling k).still = s.still := by
  unfold Part.enterLabelling
  split <;> simp

@[simp] theorem chooseScratch_still (s : Part) (k : LaneId) : (s.chooseScratch k).still = s.still := by
  unfold Part.chooseScratch
  dsimp only
  split
  · rename_i p l hp hl
    have h : ∀ s : Part, (s.setLoc p { s.loc p with state := some .opened }).still = s.still :=
      fun s => setLoc_still s p _ rfl
    split
    · simp [h]
    · split <;> simp [h]
  · simp

@[simp] theorem rechoose_still (s : Part) : (s.rechoose).still = s.still := by
  simp [Part.rechoose]

@[simp] theorem endRun_still (s : Part) (k : LaneId) : (s.endRun k).still = s.still := by
  simp [Part.endRun, leaveWaiters_still]

@[simp] theorem endRunAtLimit_still (s : Part) (k : LaneId) : (s.endRunAtLimit k).still = s.still := by
  unfold Part.endRunAtLimit
  dsimp only
  rw [cancelClaims_still, endRun_still, modLane_still]
  exact foldl_still _ (fun s i => faultStream_still s i .limit) _ s

@[simp] theorem nextVolume_still (s : Part) (k : LaneId) : (s.nextVolume k).still = s.still := by
  simp [Part.nextVolume]

@[simp] theorem runAfterHome_still (s : Part) (k : LaneId) : (s.runAfterHome k).still = s.still := by
  unfold Part.runAfterHome
  repeat' split
  all_goals simp

@[simp] theorem dataVerified_still (s : Part) (k : LaneId) (seq : Nat) (summary : List Summary) :
    (s.dataVerified k seq summary).still = s.still := by
  simp [Part.dataVerified]

@[simp] theorem closeRequest_still (s : Part) (k : LaneId) : (s.closeRequest k).still = s.still := by
  simp [Part.closeRequest]

@[simp] theorem enterClosing_still (s : Part) (k : LaneId) : (s.enterClosing k).still = s.still := by
  rfl

@[simp] theorem earlyWarning_still (s : Part) (k : LaneId) : (s.earlyWarning k).still = s.still := by
  simp [Part.earlyWarning]

@[simp] theorem abandon_still (s : Part) (k : LaneId) (cause : Option SuspectCause) :
    (s.abandon k cause).still = s.still := by
  simp [Part.abandon]

@[simp] theorem makeEov_still (s : Part) (k : LaneId) (seq : Nat) (rewrites : Nat) :
    (s.makeEov k seq rewrites).still = s.still := by
  rfl

@[simp] theorem eovStep_still (s : Part) (k : LaneId) : (s.eovStep k).still = s.still := by
  unfold Part.eovStep
  dsimp only
  split
  · split
    · repeat' (first | (simp; done) | split)
    · split
      · rfl
      · rw [modLane_still, makeEov_still]
        exact foldl_still _ closeOpenSegment_still _ s
  · rfl

@[simp] theorem volumeEnd_still (s : Part) (k : LaneId) : (s.volumeEnd k).still = s.still := by
  simp [Part.volumeEnd]

@[simp] theorem volumeStep_still (s : Part) (k : LaneId) : (s.volumeStep k).still = s.still := by
  unfold Part.volumeStep
  dsimp only
  split <;> simp

@[simp] theorem judgeVolumes_still (s : Part) : s.judgeVolumes.still = s.still := by
  simp [Part.judgeVolumes]

@[simp] theorem volumeLogic_still (old : Part) (s : Part) (again : Bool) :
    (Part.volumeLogic old s again).still = s.still := by
  unfold Part.volumeLogic
  dsimp only
  split <;> simp

@[simp] theorem jobPhase_still (s : Part) (k : LaneId) (r : RestorePhase) (v : VerifyPhase) :
    (s.jobPhase k r v).still = s.still := by
  unfold Part.jobPhase
  repeat' split
  all_goals simp

@[simp] theorem makeSeek_still (s : Part) (k : LaneId) (a : Nat) (b : Nat) : (s.makeSeek k a b).still = s.still := by
  rfl

@[simp] theorem beginIdentify_still (s : Part) (k : LaneId) : (s.beginIdentify k).still = s.still := by
  simp [Part.beginIdentify]

@[simp] theorem loadFrom_still (s : Part) (k : LaneId) (p : Loc) (label : Label) :
    (s.loadFrom k p label).still = s.still := by
  simp [Part.loadFrom]

@[simp] theorem lend_still (s : Part) (k : LaneId) (label : Label) : (s.lend k label).1.still = s.still := by
  unfold Part.lend
  dsimp only
  split <;> simp

@[simp] theorem fetch_still (s : Part) (k : LaneId) (label : Label) : (s.fetch k label).1.still = s.still := by
  unfold Part.fetch
  dsimp only
  repeat' split
  all_goals simp

@[simp] theorem endVerify_still (s : Part) (k : LaneId) (r : JobResult) : (s.endVerify k r).still = s.still := by
  simp [Part.endVerify]

@[simp] theorem fetchVerify_still (s : Part) (k : LaneId) : (s.fetchVerify k).still = s.still := by
  unfold Part.fetchVerify
  dsimp only
  split
  · rfl
  · split <;> rename_i e <;> have h := congrArg (fun x => x.1.still) e <;> simpa using h.symm

@[simp] theorem resumeVerify_still (s : Part) (k : LaneId) : (s.resumeVerify k).still = s.still := by
  unfold Part.resumeVerify
  split <;> simp

@[simp] theorem endRestore_still (s : Part) (k : LaneId) (r : JobResult) : (s.endRestore k r).still = s.still := by
  simp [Part.endRestore]

@[simp] theorem endEarly_still (s : Part) (k : LaneId) (r : JobResult) : (s.endEarly k r).still = s.still := by
  simp [Part.endEarly]

@[simp] theorem endJob_still (s : Part) (k : LaneId) (r : JobResult) : (s.endJob k r).still = s.still := by
  simp [Part.endJob]

@[simp] theorem fetchRestore_still (s : Part) (k : LaneId) : (s.fetchRestore k).still = s.still := by
  unfold Part.fetchRestore
  dsimp only
  split
  · rfl
  · split
    · rfl
    · split <;> rename_i e <;> have h := congrArg (fun x => x.1.still) e <;> simpa using h.symm

@[simp] theorem startRestore_still (s : Part) (k : LaneId) : (s.startRestore k).still = s.still := by
  simp [Part.startRestore]

@[simp] theorem jobAfterHome_still (s : Part) (k : LaneId) : (s.jobAfterHome k).still = s.still := by
  unfold Part.jobAfterHome
  dsimp only
  split
  · simp
  · split
    · split <;> rename_i e <;> have h := congrArg (fun x => x.1.still) e <;> simpa using h.symm
    · split <;> simp

@[simp] theorem homeDone_still (s : Part) (k : LaneId) : (s.homeDone k).still = s.still := by
  simp [Part.homeDone]

@[simp] theorem loadDone_still (s : Part) (k : LaneId) : (s.loadDone k).still = s.still := by
  simp [Part.loadDone]

@[simp] theorem judgeIdentity_still (s : Part) (k : LaneId) (b : ReadBlock) (block : List Byte) :
    (s.judgeIdentity k b block).still = s.still := by
  simp [Part.judgeIdentity]

@[simp] theorem continuity_still (s : Part) (k : LaneId) : (s.continuity k).still = s.still := by
  unfold Part.continuity
  repeat' split
  all_goals simp

@[simp] theorem identityPassed_still (s : Part) (k : LaneId) : (s.identityPassed k).still = s.still := by
  unfold Part.identityPassed
  dsimp only
  split
  · simp
  · split
    · rw [modVerify_still, foldl_still _ (fun s x => setSlot_still s k _ _)]
      simp
    · simp

@[simp] theorem identityFailed_still (s : Part) (k : LaneId) : (s.identityFailed k).still = s.still := by
  unfold Part.identityFailed
  dsimp only
  rw [endJob_still]
  split
  · rfl
  · exact setLoc_still s _ _ rfl

@[simp] theorem readRestore_still (s : Part) (k : LaneId) (j : RestoreJob) (b : ReadBlock) :
    (s.readRestore k j b).still = s.still := by
  unfold Part.readRestore
  dsimp only
  repeat' split
  all_goals simp

@[simp] theorem checkEov_still (s : Part) (k : LaneId) (payload : List Byte) :
    (s.checkEov k payload).still = s.still := by
  unfold Part.checkEov
  split
  · simp
  · exact foldl_still _ (fun s x => nameVerify_still s k _ _) _ s

@[simp] theorem readVerify_still (s : Part) (k : LaneId) (j : VerifyJob) (b : ReadBlock) (block : List Byte) :
    (s.readVerify k j b block).still = s.still := by
  unfold Part.readVerify
  dsimp only
  repeat' split
  all_goals simp

@[simp] theorem readDone_still (s : Part) (k : LaneId) (b : ReadBlock) (block : List Byte) :
    (s.readDone k b block).still = s.still := by
  unfold Part.readDone
  repeat' split
  all_goals simp

@[simp] theorem seekEnded_still (s : Part) (k : LaneId) (fault : Bool) (endOfMedia : Bool) :
    (s.seekEnded k fault endOfMedia).still = s.still := by
  unfold Part.seekEnded
  dsimp only
  repeat' split
  all_goals simp

@[simp] theorem endingStep_still (s : Part) (k : LaneId) (j : RestoreJob) : (s.endingStep k j).still = s.still := by
  unfold Part.endingStep
  dsimp only
  split
  · simp
  · split <;> rename_i e <;> have h := congrArg (fun x => x.1.still) e
    · simpa using h.symm
    · split <;> simpa using h.symm

@[simp] theorem restoreStep_still (s : Part) (k : LaneId) : (s.restoreStep k).still = s.still := by
  unfold Part.restoreStep
  repeat' split
  all_goals simp

@[simp] theorem verdict_still (s : Part) (j : VerifyJob) : (s.verdict j).still = s.still := by
  unfold Part.verdict
  split
  · rfl
  · split
    · split
      · exact setLoc_still s _ _ rfl
      · rfl
    · dsimp only
      refine (modSpan_still _ _ _ ?_).trans ?_
      · intro e
        rfl
      · split
        · exact setLoc_still s _ _ rfl
        · rfl

@[simp] theorem completeVerify_still (s : Part) (k : LaneId) : (s.completeVerify k).still = s.still := by
  unfold Part.completeVerify
  dsimp only
  generalize he : List.foldl _ _ _ = s1
  have h1 : s1.still = s.still := by
    rw [← he]
    exact (foldl_still _ (fun s x => nameVerify_still s k _ _) _ _).trans (modVerify_still s k _)
  generalize he2 : Part.endVerify _ k JobResult.complete = s2
  have h2 : s2.still = s.still := by
    rw [← he2, endVerify_still]
    split
    · rw [verdict_still, h1]
    · exact h1
  split
  · split
    · rw [startRestore_still, modRestore_still, h2]
    · exact h2
  · exact h2

@[simp] theorem suspendVerify_still (s : Part) (k : LaneId) : (s.suspendVerify k).still = s.still := by
  unfold Part.suspendVerify
  dsimp only
  rw [startRestore_still, modRestore_still, modVerify_still]
  exact foldl_still _ (fun s x => nameVerify_still s k _ _) _ s

@[simp] theorem verifyStep_still (s : Part) (k : LaneId) : (s.verifyStep k).still = s.still := by
  unfold Part.verifyStep
  split <;> simp

@[simp] theorem loanStep_still (s : Part) (k : LaneId) : (s.loanStep k).still = s.still := by
  simp [Part.loanStep]

@[simp] theorem settle_still (old : Part) (s : Part) (again : Bool) : (settle old s again).still = s.still := by
  simp [settle]

end Sys2Proof.Machine
end

