-- ==== Sys2Proof/Laws/Report.lean ====
section
/-! SUPPORT. What the end of an event can do (`report`), and how events and directives come out as steps. -/

namespace Sys2Proof.Machine

/-! ## Blocks and frame through updates -/

@[simp] theorem setSection_blocks (s : Part) (t : SectionState) : (s.setSection t).blocks = s.blocks := rfl
@[simp] theorem pushOwn_blocks (s : Part) (as : List OwnAccess) : (s.pushOwn as).blocks = s.blocks := rfl
@[simp] theorem pushWrites_blocks (s : Part) (kind : Bool → OwnKind) (a : Nat) (bs : List Byte) :
    (s.pushWrites kind a bs).blocks = s.blocks := rfl
@[simp] theorem dropOwn_blocks (s : Part) (p : OwnKind → Bool) : (s.dropOwn p).blocks = s.blocks := rfl
@[simp] theorem setWait_blocks (s : Part) (id : Nat) (w : Wait) : (s.setWait id w).blocks = s.blocks := rfl
@[simp] theorem hold_blocks (s : Part) (id : Nat) (w : Wait) : (s.hold id w).blocks = s.blocks := rfl
@[simp] theorem latch_blocks (s : Part) (c : Cond) : (s.latch c).blocks = s.blocks := rfl
@[simp] theorem touch_blocks (s : Part) (x : Section) : (s.touch x).blocks = s.blocks := rfl
@[simp] theorem freePort_blocks (s : Part) : s.freePort.blocks = s.blocks := rfl
@[simp] theorem pushClient_blocks (s : Part) (id : Nat) (t : Txn) : (s.pushClient id t).blocks = s.blocks := rfl
@[simp] theorem accept_blocks (s : Part) (t : Txn) : (s.accept t).2.blocks = s.blocks := rfl
@[simp] theorem issue_blocks (s : Part) (x : Section) : (s.issue x).blocks = s.blocks := rfl

@[simp] theorem okay_blocks (s : Part) (id : Nat) (data : List Byte) : (s.okay id data).blocks = s.blocks := by
  unfold Part.okay
  split <;> rfl

@[simp] theorem memoryFault_blocks (s : Part) (id : Nat) : (s.memoryFault id).blocks = s.blocks := by
  unfold Part.memoryFault
  split <;> rfl

@[simp] theorem writeSection_blocks (s : Part) (x : Section) : (s.writeSection x).blocks = s.blocks := by
  unfold Part.writeSection
  dsimp only
  split <;> rfl

/-- A fold of steps that leave a view of the part leaves it. -/
theorem foldl_view {α β : Type} (v : Part → β) (f : Part → α → Part) (h : ∀ s x, v (f s x) = v s) (xs : List α) (s : Part) :
    v (xs.foldl f s) = v s := by
  induction xs generalizing s with
  | nil => rfl
  | cons x xs ih => rw [List.foldl_cons, ih, h]

@[simp] theorem writeSections_blocks (old s : Part) : (Part.writeSections old s).blocks = s.blocks := by
  unfold Part.writeSections
  exact foldl_view Part.blocks Part.writeSection writeSection_blocks _ _

@[simp] theorem deliver_blocks (s : Part) : s.deliver.blocks = s.blocks := rfl
@[simp] theorem driveAttn_blocks (s : Part) (c : Bool) : (s.driveAttn c).blocks = s.blocks := rfl

/-- All that the arbiter can do (R37): nothing, with the port busy or both lines empty; the client line's first transaction goes, when
the own line is empty or was served last; or the own line's, when the client line is empty or was served last. -/
theorem grant_cases (s : Part) :
    (s.grant = s ∧ (s.bus.port ≠ none ∨ s.bus.clientLine = [] ∧ s.bus.ownLine = []))
    ∨ (∃ i t rest, s.bus.port = none ∧ s.bus.clientLine = (i, t) :: rest ∧ (s.bus.ownLine = [] ∨ s.bus.lastServed = .own)
        ∧ s.grant = { s with bus := { s.bus with clientLine := rest, port := some (.client i t), lastServed := .client } })
    ∨ (∃ a rest, s.bus.port = none ∧ s.bus.ownLine = a :: rest ∧ (s.bus.clientLine = [] ∨ s.bus.lastServed = .client)
        ∧ s.grant = { s with bus := { s.bus with ownLine := rest, port := some (.own a false), lastServed := .own } }) := by
  unfold Part.grant
  split
  · simp_all
  · split
    · simp_all
    · simp_all
    · simp_all
    · split <;> simp_all

@[simp] theorem grant_blocks (s : Part) : s.grant.blocks = s.blocks := by
  unfold Part.grant
  repeat' split
  all_goals rfl

/-- The end of an event leaves the blocks. -/
@[simp] theorem report_blocks (old s : Part) : (report old s).blocks = s.blocks := by
  simp [report, writeSections_blocks]

/-- The end of an event leaves the frame. -/
@[simp] theorem report_frame (old s : Part) : (report old s).frame = s.frame := by
  simp [Part.frame]

/-- Equal still parts give equal frames. -/
theorem frame_of_still {a b : Part} (h : a.still = b.still) : a.frame = b.frame := by
  have e : ∀ s : Part, s.frame = { s.still with bus := { Bus.blank with waiting := [], ownLine := [] }, status := []
                                                unit := { s.still.unit with attn := .released } } := fun _ => rfl
  rw [e a, e b, h]

/-! ## Writing sections, delivering, granting: the bus -/

theorem writeSection_waiting (s : Part) (x : Section) : (s.writeSection x).bus.waiting = s.bus.waiting := by
  unfold Part.writeSection
  dsimp only
  split <;> rfl
theorem writeSection_latched (s : Part) (x : Section) : (s.writeSection x).unit = s.unit := by
  unfold Part.writeSection
  dsimp only
  split <;> rfl
theorem writeSection_lines (s : Part) (x : Section) : (s.writeSection x).bus.clientLine = s.bus.clientLine := by
  unfold Part.writeSection
  dsimp only
  split <;> rfl
theorem writeSection_port (s : Part) (x : Section) : (s.writeSection x).bus.port = s.bus.port := by
  unfold Part.writeSection
  dsimp only
  split <;> rfl
theorem writeSection_answered (s : Part) (x : Section) : (s.writeSection x).bus.answered = s.bus.answered := by
  unfold Part.writeSection
  dsimp only
  split <;> rfl
theorem writeSection_level (s : Part) (x : Section) : (s.writeSection x).levelBits = s.levelBits := by
  unfold Part.writeSection
  dsimp only
  split <;> rfl

@[simp] theorem writeSections_waiting (old s : Part) : (Part.writeSections old s).bus.waiting = s.bus.waiting :=
  foldl_view (·.bus.waiting) Part.writeSection writeSection_waiting _ _
@[simp] theorem writeSections_unit (old s : Part) : (Part.writeSections old s).unit = s.unit :=
  foldl_view (·.unit) Part.writeSection writeSection_latched _ _
@[simp] theorem writeSections_clientLine (old s : Part) : (Part.writeSections old s).bus.clientLine = s.bus.clientLine :=
  foldl_view (·.bus.clientLine) Part.writeSection writeSection_lines _ _
@[simp] theorem writeSections_port (old s : Part) : (Part.writeSections old s).bus.port = s.bus.port :=
  foldl_view (·.bus.port) Part.writeSection writeSection_port _ _
@[simp] theorem writeSections_answered (old s : Part) : (Part.writeSections old s).bus.answered = s.bus.answered :=
  foldl_view (·.bus.answered) Part.writeSection writeSection_answered _ _
@[simp] theorem writeSections_level (old s : Part) : (Part.writeSections old s).levelBits = s.levelBits :=
  foldl_view Part.levelBits Part.writeSection writeSection_level _ _

@[simp] theorem grant_waiting (s : Part) : s.grant.bus.waiting = s.bus.waiting := by
  unfold Part.grant; repeat' split
  all_goals rfl
@[simp] theorem grant_answered (s : Part) : s.grant.bus.answered = s.bus.answered := by
  unfold Part.grant; repeat' split
  all_goals rfl
@[simp] theorem grant_unit (s : Part) : s.grant.unit = s.unit := by
  unfold Part.grant; repeat' split
  all_goals rfl

/-- What `report` answers, leaves waiting and leaves latched: one pass of `deliverFrom`. -/
theorem report_delivers (old s : Part) :
    ((report old s).bus.waiting, (report old s).bus.answered, (report old s).unit.latched) =
      let r := deliverFrom s.levelBits s.bus.waiting [] s.unit.latched
      (r.1, s.bus.answered ++ r.2.1, r.2.2) := by
  simp [report, Part.driveAttn, Part.deliver]

@[simp] theorem report_waiting (old s : Part) :
    (report old s).bus.waiting = (deliverFrom s.levelBits s.bus.waiting [] s.unit.latched).1 :=
  congrArg (·.1) (report_delivers old s)
@[simp] theorem report_answered (old s : Part) : (report old s).bus.answered =
    s.bus.answered ++ (deliverFrom s.levelBits s.bus.waiting [] s.unit.latched).2.1 :=
  congrArg (·.2.1) (report_delivers old s)
@[simp] theorem report_latched (old s : Part) : (report old s).unit.latched =
    (deliverFrom s.levelBits s.bus.waiting [] s.unit.latched).2.2 :=
  congrArg (·.2.2) (report_delivers old s)

/-- With no Condition Word read waiting, one pass leaves the latched bits. -/
theorem deliverFrom_latched (level : BitVec 64) (ws : List Waiting) (bl : List (BitVec 4)) (l : BitVec 64)
    (h : ∀ w ∈ ws, w.wait ≠ .cond) : (deliverFrom level ws bl l).2.2 = l := by
  induction ws generalizing bl l with
  | nil => rfl
  | cons x xs ih =>
    have hx := h x (by simp)
    have hxs : ∀ w ∈ xs, w.wait ≠ .cond := fun w hw => h w (by simp [hw])
    unfold deliverFrom
    split
    · exact ih _ _ hxs
    · rename_i e
      split at e
      · cases e
      · exact absurd e hx
    · exact ih _ _ hxs

/-! ## Own accesses -/

/-- All that the answer to a transaction does to a parameter read that waits (R179): nothing while none waits or a write made in
PENDING is unanswered, else the read is made. -/
theorem writesAnswered_cases (s : Part) :
    (s.writesAnswered = s ∧ ((∀ c lost, s.unit.slot ≠ .busy c lost .writes) ∨ s.writesUnanswered = true))
    ∨ ∃ c lost, s.unit.slot = .busy c lost .writes ∧ s.writesUnanswered = false ∧ s.writesAnswered = s.readBlock c lost := by
  unfold Part.writesAnswered
  split
  · rename_i c lost h
    cases e : s.writesUnanswered
    · exact .inr ⟨c, lost, h, rfl, by simp⟩
    · exact .inl ⟨by simp, .inr rfl⟩
  · rename_i h
    exact .inl ⟨rfl, .inl h⟩

@[simp] theorem pushOwn_ownIssued (s : Part) (as : List OwnAccess) : (s.pushOwn as).ownIssued = s.ownIssued ++ as := by
  simp [Part.ownIssued]
@[simp] theorem setSection_ownIssued (s : Part) (t : SectionState) : (s.setSection t).ownIssued = s.ownIssued := rfl

@[simp] theorem grant_ownIssued (s : Part) : s.grant.ownIssued = s.ownIssued := by
  unfold Part.grant
  repeat' split
  all_goals simp_all [Part.ownIssued]

/-- The writes of a run of bytes are of the kind they were given. -/
theorem writeBursts_kind (kind : Bool → OwnKind) (a : Nat) (bs : List Byte) :
    ∀ x ∈ writeBursts kind a bs, ∃ b, x.kind = kind b := by
  intro x hx
  simp only [writeBursts, List.mem_map] at hx
  obtain ⟨y, _, rfl⟩ := hx
  exact ⟨_, rfl⟩

theorem hasIssued_refl (s : Part) : s.hasIssued s.ownIssued [] := ⟨[], by simp, rfl⟩

theorem hasIssued_of_eq {s t : Part} {b i : List OwnAccess} (h : t.ownIssued = s.ownIssued) (hs : s.hasIssued b i) :
    t.hasIssued b i := by
  obtain ⟨u, e, a⟩ := hs
  exact ⟨u, h.trans e, a⟩

theorem writeSection_issued (s : Part) (x : Section) : (s.writeSection x).hasIssued s.ownIssued [] := by
  unfold Part.writeSection
  dsimp only
  split
  · exact hasIssued_refl s
  · obtain ⟨bs, e⟩ : ∃ bs, (s.issue x).ownIssued = s.ownIssued
        ++ writeBursts (fun last => .status x last) (s.areaBase + x.place.1) bs := ⟨_, pushOwn_ownIssued _ _⟩
    refine ⟨writeBursts (fun last => .status x last) (s.areaBase + x.place.1) bs, by rw [e, List.append_nil],
      List.all_eq_true.mpr fun a ha => ?_⟩
    obtain ⟨b, k⟩ := writeBursts_kind _ _ _ a ha
    rw [k]; rfl

theorem foldl_issued (xs : List Section) (s : Part) : (xs.foldl Part.writeSection s).hasIssued s.ownIssued [] := by
  induction xs generalizing s with
  | nil => exact hasIssued_refl s
  | cons x xs ih =>
    obtain ⟨u, e, a⟩ := writeSection_issued s x
    obtain ⟨v, f, b⟩ := ih (s.writeSection x)
    refine ⟨u ++ v, ?_, by simp [a, b]⟩
    rw [List.foldl_cons, f, e]
    simp

/-- The end of an event issues updates of the Status Block and nothing else. -/
theorem report_issued (old s : Part) : (report old s).hasIssued s.ownIssued [] := by
  have h := foldl_issued (allSections.filter fun x => s.touched.contains x || sectionChanged old s x)
    { s with touched := [], rose := 0 }
  refine hasIssued_of_eq ?_ h
  exact grant_ownIssued _

/-- Own accesses that an event's effect issued stand before the updates of the Status Block. -/
theorem report_issued_of (old s : Part) {b i : List OwnAccess} (h : s.ownIssued = b ++ i) : (report old s).hasIssued b i := by
  obtain ⟨u, e, a⟩ := report_issued old s
  exact ⟨u, by rw [e, h]; simp, a⟩

/-! ## Events as steps -/

/-- An event with RESETN high: the next state. -/
theorem event_next (s : State) (f : Part → Part) (h : s.pins.resetLow = false) :
    event s f = .next { s with toPart := report s.toPart (f s.toPart) } := by
  simp [event, live, h]

/-- With no Condition Word read unanswered, the end of an event leaves the latched bits. -/
theorem report_keeps_latched (old s : Part) (h : s.noConditionRead) : (report old s).unit.latched = s.unit.latched := by
  rw [report_latched, deliverFrom_latched _ _ _ _ h]

/-- An event gives a next state whose commands wait as before and whose blocks, frame, own accesses and latched bits are
those of its effect, but for updates of the Status Block. -/
theorem event_blocks (s : State) (f : Part → Part) (h : s.pins.resetLow = false) :
    ∃ t : State, event s f = .next t ∧ t.pending = s.pending ∧ t.blocks = (f s.toPart).blocks
      ∧ t.frame = (f s.toPart).frame ∧ t.hasIssued (f s.toPart).ownIssued []
      ∧ ((f s.toPart).noConditionRead → t.unit.latched = (f s.toPart).unit.latched) :=
  ⟨_, event_next s f h, rfl, by simp, by simp, report_issued _ _, report_keeps_latched _ _⟩

end Sys2Proof.Machine
end

