-- ==== Sys2Proof/Laws/Settle.lean ====
section
/-! SUPPORT. What the lanes settle: nothing when both are calm; events and directives of a part that is quiet afterwards. -/

namespace Sys2Proof.Machine

/-- Putting back the lane that stands there. -/
@[simp] theorem setLane_lane (s : Part) (k : LaneId) : s.setLane k (s.lane k) = s := by cases k <;> rfl

theorem verifyStep_calm (s : Part) (k : LaneId) (h : (s.lane k).calm = true) : s.verifyStep k = s := by
  have hj : (s.lane k).jobsCalm = true := by simp only [Lane.calm, Bool.and_eq_true] at h; exact h.1.1.1
  unfold Part.verifyStep
  split
  · rfl
  · rename_i j e
    have hv : (s.lane k).verify = some j := by
      unfold Part.verifying at e
      split at e
      · split at e <;> simp_all
      · cases e
    simp only [Lane.jobsCalm, hv, Bool.or_eq_true, Bool.not_eq_true', Bool.and_eq_true, bne_iff_ne] at hj
    rw [if_pos]
    tauto

theorem restoreStep_calm (s : Part) (k : LaneId) (h : (s.lane k).calm = true) : s.restoreStep k = s := by
  have hj : (s.lane k).jobsCalm = true := by simp only [Lane.calm, Bool.and_eq_true] at h; exact h.1.1.1
  unfold Part.restoreStep
  split
  · rfl
  · rename_i j e
    have hv : (s.lane k).restore = some j := by
      unfold Part.restoring at e
      split at e
      · split at e <;> simp_all
      · cases e
    simp only [Lane.jobsCalm, hv, Bool.or_eq_true, Bool.not_eq_true', Bool.and_eq_true, bne_iff_ne] at hj
    split
    · rfl
    · rename_i hq
      have hp : j.phase ≠ .reading ∧ j.phase ≠ .ending := by
        rcases hj with hj | hj
        · simp [hj] at hq
        · exact hj.1
      split <;> simp_all

theorem eovStep_calm (s : Part) (k : LaneId) (h : (s.lane k).calm = true) : s.eovStep k = s := by
  unfold Part.eovStep
  dsimp only
  split
  · rename_i v hs hv
    simp only [Lane.calm, hs, hv, Bool.and_eq_true, Option.isNone_iff_eq_none] at h
    obtain ⟨_, ho, hd⟩ := h
    rw [ho]
    simp only
    rw [if_pos]
    simp only [Bool.or_eq_true] at hd ⊢
    tauto
  · rfl

theorem volumeStep_calm (s : Part) (k : LaneId) (h : (s.lane k).calm = true) : s.volumeStep k = s := by
  unfold Part.volumeStep
  dsimp only
  split
  · rename_i v hs hv
    have hl : ¬ (s.lane k).run.limit ≤ v.positions + 80 := by
      simp only [Lane.calm, hs, hv, Bool.and_eq_true, decide_eq_true_eq] at h
      omega
    rw [if_neg hl, eovStep_calm s k h]
  · exact eovStep_calm s k h

theorem rechoose_calm (s : Part) (h0 : (s.lane .l0).calm = true) (h1 : (s.lane .l1).calm = true) : s.rechoose = s := by
  have w : ∀ l : Lane, l.calm = true → (l.state == .waitingMedia) = false := by
    intro l h
    simp only [Lane.calm, Bool.and_eq_true, bne_iff_ne] at h
    simpa using h.1.2
  simp [Part.rechoose, w _ h0, w _ h1]

theorem judgeVolumes_calm (s : Part) (h0 : (s.lane .l0).calm = true) (h1 : (s.lane .l1).calm = true) :
    s.judgeVolumes = s := by
  rw [Part.judgeVolumes, volumeStep_calm s _ h0, volumeStep_calm s _ h1, eovStep_calm s _ h0]

theorem volumeLogic_calm (old s : Part) (again : Bool) (h0 : (s.lane .l0).calm = true) (h1 : (s.lane .l1).calm = true) :
    Part.volumeLogic old s again = s := by
  have j := judgeVolumes_calm s h0 h1
  unfold Part.volumeLogic
  dsimp only
  split <;> simp [j, rechoose_calm s h0 h1]

theorem loanStep_calm (s : Part) (k : LaneId) (h : (s.lane k).calm = true) : s.loanStep k = s := by
  unfold Part.loanStep
  rw [if_neg]
  simp only [Lane.calm, Bool.and_eq_true, bne_iff_ne] at h
  exact fun c => h.1.1.2 c.1

theorem follow_follows (s : Part) (k : LaneId) (h : s.follows k = true) : s.follow k = s := by
  unfold Part.follow
  dsimp only
  split
  · rename_i c
    have hr : (s.lane k).resting = true := by
      rcases c.2 with e | e <;> simp [Lane.resting, e]
    have e : s.restState k = (s.lane k).state := by
      simp only [Part.follows, c.1, hr, Bool.not_true, Bool.false_or, beq_iff_eq] at h
      exact h.symm
    rw [e]
    exact setLane_lane s k
  · rfl

/-- A quiet part has nothing to settle. -/
theorem settle_quiet (old s : Part) (again : Bool) (h : s.quiet = true) : settle old s again = s := by
  simp only [Part.quiet, Bool.and_eq_true] at h
  obtain ⟨⟨⟨h0, h1⟩, f0⟩, f1⟩ := h
  simp only [settle]
  rw [verifyStep_calm s _ h0, restoreStep_calm s _ h0, verifyStep_calm s _ h1, restoreStep_calm s _ h1,
    volumeLogic_calm old s again h0 h1, loanStep_calm s _ h0, loanStep_calm s _ h1, follow_follows s _ f0, follow_follows s _ f1]

/-! ## Lane events and directives -/

/-- A lane event whose effect leaves the part quiet: the next state is that effect, reported. -/
theorem laneEvent_quiet (s : State) (f : Part → Part) (x : Part) (h : s.pins.resetLow = false) (hx : f s.toPart = x)
    (q : x.quiet = true) : laneEvent s f = .next { s with toPart := report s.toPart x } := by
  rw [laneEvent, event_next s _ h, hx, settle_quiet _ _ _ q]

/-- A lane event leaves the frame of its effect, and its blocks, own accesses and latched bits when it is quiet
afterwards. -/
theorem laneEvent_leaves (c : Instr) (s : State) (f : Part → Part) (e : exec c s = laneEvent s f)
    (h : s.pins.resetLow = false) : Leaves c s (f s.toPart) := by
  obtain ⟨t, ht, hp, hb, hf, hi, hl⟩ := event_blocks s (fun p => settle p (f p) false) h
  refine ⟨t, e.trans ht, hp, hf.trans (frame_of_still (settle_still _ _ _)), fun q => ?_⟩
  rw [hb]
  rw [settle_quiet _ _ _ q] at hi hl ⊢
  exact ⟨rfl, hi, hl⟩

/-- An event that the lanes do not hear of leaves the frame, the blocks, the own accesses and the latched bits of its
effect. -/
theorem event_leaves (c : Instr) (s : State) (f : Part → Part) (e : exec c s = event s f)
    (h : s.pins.resetLow = false) : Leaves c s (f s.toPart) := by
  obtain ⟨t, ht, hp, hb, hf, hi, hl⟩ := event_blocks s f h
  exact ⟨t, e.trans ht, hp, hf, fun _ => ⟨hb, hi, hl⟩⟩

/-- The Outcome Word is one burst of two beats. -/
theorem outcome_burst (kind : Bool → OwnKind) (a : Nat) (o : Outcome) (h : a % 128 = 0) :
    writeBursts kind a (outcomeBytes o) = [writeBurst (kind true) a (outcomeBytes o)] := by
  have hl : (outcomeBytes o).length = 16 := by simp [outcomeBytes, leBytes, zeros]
  have hc : cutRun ((outcomeBytes o).length + 1) a (outcomeBytes o) = [(a, outcomeBytes o)] := by
    have hne : (outcomeBytes o).isEmpty = false := by simp [outcomeBytes]
    have ht : (outcomeBytes o).take 128 = outcomeBytes o := List.take_of_length_le (by omega)
    have hd : (outcomeBytes o).drop 128 = [] := List.drop_of_length_le (by omega)
    rw [hl]
    simp [cutRun, hne, h, ht, hd]
  simp [writeBursts, hc]

/-- Composing an outcome issues its write and no other own access. -/
theorem compose_ownIssued (s : Part) (code : Nat) (r : Result) (d : Nat) (h : s.unit.slot = .busy code false .outcome) :
    (s.compose r d).ownIssued = s.ownIssued ++ [(s.compose r d).outcomeWrite false] := by
  have hd : (0x1000000 * s.pins.dab.toNat + 0x80) % 128 = 0 := by omega
  simp only [Part.compose, h, Part.writeOutcome, Part.pushWrites, pushOwn_ownIssued, Part.areaBase]
  rw [outcome_burst _ _ _ hd]
  rfl

/-- Composing an outcome with the slot BUSY, up to the bus. -/
theorem compose_blocks (s : Part) (code : Nat) (r : Result) (d : Nat) (h : s.unit.slot = .busy code false .outcome) :
    (s.compose r d).blocks = (s.composed code r d).blocks := by
  simp only [Part.compose, h]
  rfl

/-- Composing an outcome with the slot BUSY, up to the frame. -/
theorem compose_frame (s : Part) (code : Nat) (r : Result) (d : Nat) (h : s.unit.slot = .busy code false .outcome) :
    (s.compose r d).frame = (s.composed code r d).frame := by
  unfold Part.frame
  rw [compose_blocks s code r d h]

/-- Composing an outcome leaves the transactions. -/
theorem compose_waiting (s : Part) (r : Result) (d : Nat) : (s.compose r d).bus.waiting = s.bus.waiting := by
  unfold Part.compose
  split <;> rfl

/-- Composing an outcome latches nothing: DIRECTIVE DONE waits for memory's answer. -/
theorem compose_latched (s : Part) (r : Result) (d : Nat) : (s.compose r d).unit.latched = s.unit.latched := by
  unfold Part.compose
  split <;> rfl

/-- Parts that agree in their still parts compose to equal frames. -/
theorem composed_frame {a b : Part} (code : Nat) (r : Result) (d : Nat) (h : a.still = b.still) :
    (a.composed code r d).frame = (b.composed code r d).frame := by
  have e : ∀ s : Part, (s.composed code r d).frame =
      { s.frame with unit := { s.frame.unit with
        slot := .busy code false .outcome
        outcome := { code := code, result := r, lost := false, detail := d % 65536,
                     count := (s.frame.unit.outcome.count + 1) % 65536 } } } := fun _ => rfl
  rw [e a, e b, frame_of_still h]

/-- What the end of an event leaves of the Outcome Word and the directive area. -/
theorem report_outcomeWrite (old s : Part) (b : Bool) : (report old s).outcomeWrite b = s.outcomeWrite b := by
  have h := congrArg (fun f : Still => (f.pins, f.unit.outcome)) (report_frame old s)
  simp only [Part.frame, Part.blocks, Part.still, Prod.mk.injEq] at h
  simp only [Part.outcomeWrite, Part.areaBase, h.1, h.2]

/-- A directive that the slot takes, judged with an outcome at once, leaves what its judgement leaves. -/
theorem directive_judges (c : Instr) (s : State) (code : Nat) (f : Part → Judged)
    (e : exec c s = event s (fun p => p.directive code f)) (h : s.toPart.takes code) (x : Part) (r : Result) (d : Nat)
    (hx : f (s.toPart.setDirSlot (.busy code false .outcome)) = (x, some (r, d)))
    (hs : x.unit.slot = .busy code false .outcome) : Judges c s code r d x := by
  have hd : s.toPart.directive code f = Part.conclude s.toPart
      (chooseAgain s.toPart (x, some (r, d)) (code == 0x54)) (x, some (r, d)) := by
    unfold Part.directive
    rcases h.2 with h' | h' <;> rw [h'] <;> simp [hx]
  have ht := event_next s (fun p => p.directive code f) h.1
  simp only [hd, Part.conclude] at ht
  generalize chooseAgain _ _ _ = again at ht
  have hy := settle_still s.toPart x again
  have hq := fun q => settle_quiet s.toPart x again q
  generalize settle s.toPart x again = y at ht hy hq
  have hu : y.unit.slot = .busy code false .outcome := (congrArg (fun z : Still => z.unit.slot) hy).trans hs
  have hi := report_issued_of s.toPart _ (compose_ownIssued y code r d hu)
  rw [← report_outcomeWrite s.toPart] at hi
  refine ⟨_, e.trans ht, rfl, ?_, ⟨_, hi⟩, fun q => ?_⟩
  · rw [report_frame, compose_frame _ code r d hu]
    exact composed_frame code r d hy
  · obtain rfl := hq q
    refine ⟨by rw [report_blocks, compose_blocks _ code r d hu], hi, fun l => ?_⟩
    have l' : (y.compose r d).noConditionRead := by rwa [Part.noConditionRead, compose_waiting]
    exact (report_keeps_latched _ _ l').trans (compose_latched _ _ _)

end Sys2Proof.Machine
end

