-- ==== Sys2Proof/WellFormed.lean ====
section
/-! DEFINITION. Which commands are well formed: the shapes of bursts, answers and frames that the other side of each port can send. -/

namespace Sys2Proof

/-- A transaction carries a strobe and a data byte for every byte of its beats when it is a write, and none when it is
a read (file 02, opening: "A write carries its data with it"). A burst whose form R21 refuses is still well formed
here: refusing it is the part's business. -/
def Txn.wellFormed (t : Txn) : Bool :=
  if t.write then t.strobes.length == 8 * t.beats && t.data.length == 8 * t.beats
  else t.strobes.isEmpty && t.data.isEmpty

/-- Memory's answer to a read carries whole beats, at most 16 of them (R37). -/
def answerData (d : List Byte) : Bool := d.length % 8 == 0 && d.length ≤ 128

/-- The directive codes of section 10.3 (R180). -/
def directiveCodes : List Nat :=
  [0x01, 0x02, 0x03, 0x10, 0x20, 0x21, 0x22, 0x23, 0x24, 0x30, 0x31, 0x32, 0x33, 0x40, 0x41, 0x42, 0x43,
   0x50, 0x51, 0x52, 0x53, 0x54, 0x60, 0x61, 0x62, 0x70, 0x71, 0x72, 0x78, 0x7F]

/-- Whether a command can be what its row names. -/
def Instr.wellFormed : Instr → Bool
  | .clientTransaction t | .intakeWrite t | .returnWrite t => t.wellFormed
  | .conditionWordRead t | .sendRead t => t.wellFormed && !t.write
  | .passedThroughAnswer _ d | .poolReadAnswered _ d | .ownAccessAnswered _ d => answerData d
  | .parameterReadAnswered ok d => d.length == (if ok then 64 else d.length) && answerData d
  | .unknownCode c => !(directiveCodes.contains c.toNat) && c ≠ 0 && c ≠ 0xC9
  | .moveAnswer r => r.toNat ≤ 4
  | .scanAnswer r l => r.toNat ≤ 4 && (l.isNone || r == 0)
  | .queryAnswer r b => r.toNat ≤ 4 && (b.isSome == (r == 0))
  | .magazineOpened w | .magazineClosed w => w.toNat ≤ 1
  | .stray _ ps => ps.length ≤ 24
  | .framingDiscard _ => true
  | _ => true

end Sys2Proof
end

