-- ==== Sys2Proof/Tests/Slice0.lean ====
section
/-! SUPPORT. Tests: ill-formed commands refused, the worked figures of spec/, and for every statement a state and operands that meet its hypotheses. -/

namespace Sys2Proof.Tests

-- One theorem at a time: elaborating them all at once needs more stack than check.sh grants.
set_option Elab.async false

open Sys2Proof.Machine

/-! ## Well-formedness: one ill-formed command for each check -/

theorem test_write_needs_strobes : (Instr.clientTransaction ⟨0, true, 0, 1, [], []⟩).wellFormed = false := by decide
theorem test_read_carries_no_data : (Instr.intakeWrite ⟨0, false, 0, 1, [], [0]⟩).wellFormed = false := by decide
theorem test_condition_read_is_a_read :
    (Instr.conditionWordRead ⟨0, true, 0x100, 1, List.replicate 8 true, zeros 8⟩).wellFormed = false := by decide
theorem test_answer_in_whole_beats : (Instr.passedThroughAnswer true (zeros 7)).wellFormed = false := by decide
theorem test_answer_at_most_16_beats : (Instr.poolReadAnswered true (zeros 136)).wellFormed = false := by decide +kernel
theorem test_parameter_block_whole : (Instr.parameterReadAnswered true (zeros 56)).wellFormed = false := by decide
theorem test_unknown_code_is_unknown : (Instr.unknownCode 0x22).wellFormed = false := by decide
theorem test_unknown_code_not_empty : (Instr.unknownCode 0).wellFormed = false := by decide
theorem test_unknown_code_not_confirm : (Instr.unknownCode 0xC9).wellFormed = false := by decide
theorem test_answer_result_range : (Instr.moveAnswer 5).wellFormed = false := by decide
theorem test_label_only_with_ok :
    (Instr.scanAnswer 1 (some ⟨0x41, 0x41, 0x41, 0x41, 0x41, 0x41, 0x4B, 0x31⟩)).wellFormed = false := by decide
theorem test_query_ok_has_state_byte : (Instr.queryAnswer 0 none).wellFormed = false := by decide
theorem test_magazine_number : (Instr.magazineOpened 2).wellFormed = false := by decide
theorem test_stray_parameters : (Instr.stray 0x50 (zeros 25)).wellFormed = false := by decide
theorem test_well_formed_write :
    (Instr.clientTransaction ⟨0, true, 0, 1, List.replicate 8 true, zeros 8⟩).wellFormed = true := by decide

/-! ## Worked figures -/

/-- R139: SCAN of slot 7 is sent as A7 22 01 07 D6. -/
theorem test_scan_frame : (Command.scan 6).frame = [0xA7, 0x22, 0x01, 0x07, 0xD6] := by decide

/-- The 15-byte record of the worked encoding, "ABCABCABCAAAAAX". -/
def worked : List Byte := [0x41, 0x42, 0x43, 0x41, 0x42, 0x43, 0x41, 0x42, 0x43, 0x41, 0x41, 0x41, 0x41, 0x41, 0x58]

/-- All of a short record taken, then every decision made. -/
def packAll : Nat → Packing → List Token
  | 0, _ => []
  | n + 1, k =>
    if k.look.isEmpty then flushLiteral k.lit
    else k.decision.2 ++ packAll n k.decision.1

/-- The worked encoding: 02 41 42 43 C0 02 41 41 00 58. -/
theorem test_worked_encoding : packedBytes (packAll 16 (worked.foldl Packing.takeByte Packing.empty).setEnded) =
    [0x02, 0x41, 0x42, 0x43, 0xC0, 0x02, 0x41, 0x41, 0x00, 0x58] := by decide +kernel

/-- The worked fold check: A = 1008, B = 7931, check 0x1EFB03F0. -/
theorem test_worked_fold : Fold.start.addAll worked = ⟨1008, 7931⟩ ∧ foldCheck worked = 0x1EFB03F0 := by decide +kernel

/-- The split of R74 with 38 bytes remaining: 16 packed bytes fit whole in front, nothing is left but the record check. -/
theorem test_split_leaves_empty_last : splitTokens (38 - 20) [.lit (zeros 15)] = ([.lit (zeros 15)], []) := by decide

theorem test_no_word_spells_a_command : decodeTableWord 32 0x12345678 = none := rfl

/-! ## States for the witnesses -/

/-- A label of valid format. -/
def lab (n : Nat) : Label := ⟨0x41, 0x41, 0x41, 0x41, 0x41, byteOf (0x41 + n), 0x4B, 0x31⟩

/-- `s` with its part changed. -/
def put (s : State) (f : Part → Part) : State := { s with toPart := f s.toPart }

/-- A part at rest after reset: no transaction, nothing outstanding. -/
def calm : State := put State.reset (fun p => { p with bus := Bus.blank, changer := { p.changer with out := none } })

/-- With RESETN low. -/
def low : State := put calm Part.resetLow

/-- With a transaction on the port that no test looks at. -/
def ported : State := put calm (fun p => { p with bus := { p.bus with port := some (.client 99 ⟨0, false, 0, 1, [], []⟩) } })

/-- With a pool of 8 buffers at 0x100000 and windows: intake 0, send 0, return 0. -/
def pooled : State := put calm (fun p => Part.enforce { p with
  pool := { geometry := some ⟨0x100000, 8⟩, buffers := List.replicate 8 Buffer.blank, free := List.range 8, waiters := [], nextBlk := 0 }
  path := { p.path with
    windows := ((p.path.windows.set 0 (some ⟨0x200000, 4096⟩)).set 8 (some ⟨0x700000, 32768⟩)).set 10 (some ⟨0x710000, 32768⟩) } })

/-- With stream 0 bound to lane 0. -/
def stream (st : StreamState) (f : Stream → Stream) : State :=
  put pooled (fun p => p.setStream 0 (f { p.stream 0 with state := st, lane := some .l0 }))

/-- With lane 0 changed. -/
def laned (s : State) (f : Lane → Lane) : State := put s (fun p => p.modLane .l0 f)

/-- With a cartridge at a location. -/
def cart (s : State) (p : Loc) (n : Nat) (c : CartState) : State := put s (fun x => x.setLoc p ⟨.occupied, some (lab n), some c, false, none⟩)

/-- With an EMPTY location. -/
def bare (s : State) (p : Loc) : State := put s (fun x => x.emptyAt p)

/-- With the transactions that wait, and the port. -/
def bused (s : State) (ws : List Waiting) (port : Option PortTxn) : State :=
  put s (fun p => { p with bus := { p.bus with waiting := ws, port := port } })

/-- With the slot. -/
def slotted (s : State) (x : DirSlot) : State := put s (fun p => p.setDirSlot x)

/-- With the changer changed. -/
def changed (s : State) (f : Changer → Changer) : State := put s (fun p => { p with changer := f p.changer })

/-- A full-beat write of `n` beats. -/
def wr (addr : BitVec 32) (n : Nat) : Txn := ⟨3, true, addr, n, List.replicate (8 * n) true, zeros (8 * n)⟩

/-- A read of `n` beats. -/
def rd (addr : BitVec 32) (n : Nat) : Txn := ⟨3, false, addr, n, [], []⟩

/-- A segment with one literal run. -/
def seg : Segment := ⟨0, 0, true, true, [.lit [1, 2, 3]], 77⟩

/-- Lane 0 in APPEND with one block queued. -/
def appending : State := laned (cart pooled 25 1 .opened) (fun l => { l with
  state := .append, queue := [⟨0, none, 0, false⟩]
  volume := some { label := lab 1, set := 7, number := 1, twin := false, nextSeq := 2, positions := 1, verified := 0, rewrites := [] }
  run := { l.run with isOpen := true, set := 7, nextVolume := 2, chosen := some ⟨lab 1, none, true⟩, ownCapacity := 12288, limit := 12288 } })

/-- A twin run with lane 0 as its primary, both lanes in APPEND: `n` positions used of a limit, one block and two queued. -/
def twinned (limit n : Nat) : State :=
  let volume := fun (i : Nat) (twin : Bool) =>
    some (⟨lab i, 7, 1, twin, 2, n, 0, []⟩ : Volume)
  let lane := fun (i : Nat) (role : Role) (queue : List QueueEntry) (l : Lane) => { l with
    state := .append, queue := queue, volume := volume i (role == .twin)
    run := { l.run with isOpen := true, role := role, set := 7, nextVolume := 2, chosen := some ⟨lab i, none, true⟩, ownCapacity := 12288, limit := limit } }
  put pooled (fun p => { (p.modLane .l0 (lane 1 .primary [⟨0, none, 0, false⟩])).modLane .l1
    (lane 2 .twin [⟨0, none, 0, false⟩, ⟨1, none, 0, false⟩]) with twin := ⟨true, .l0⟩ })

/-- Lane 0 in FAULT with its run open, its chosen cartridge, on which a LABEL was sent or not, standing OPEN in slot 4 for lane 1
too. -/
def elsewhere (sent : Bool) : State :=
  put (laned (cart pooled 3 1 .opened) (fun l => { l with
      state := .fault, code := .echoTimeout
      volume := some { label := lab 1, set := 7, number := 1, twin := false, nextSeq := 1, positions := 1, verified := 0, rewrites := [] }
      run := { l.run with isOpen := true, stopAfter := true, set := 7, nextVolume := 1, chosen := some ⟨lab 1, some 4, sent⟩ } }))
    (fun p => p.modLane .l1 (fun l => { l with run := { l.run with chosen := some ⟨lab 1, some 4, false⟩ } }))

/-- A span entry with one range of stream 2. -/
def entry : SpanEntry :=
  { label := lab 2, set := 7, number := 1, twin := false, mirror := .full, cause := .none, positions := 12288, verified := 98
    eovVerified := true, runs := [(3, 5)], absentFrom := 97
    ranges := [⟨2, ⟨0, 0, true⟩, ⟨2 ^ 32 - 1, 3, true⟩, 1, 97, some (10, 2)⟩] }

/-- The entry in the Span Table, its cartridge in slot 4, lane 0's bay EMPTY. -/
def spanned : State := put (bare (cart calm 3 2 .full) 25) (fun p => { p with span := [entry] })

/-- A restore held in WAITING DEST on lane 0, in the middle of a block of zeros. -/
def waiting : State := laned spanned (fun l => { l with
  state := .reading, buffer := some (zeros 32768), outstanding := some ⟨some (1, 64), none⟩
  access := { l.access with chunk := some (1, 64), walk := some ⟨0, 21, none, none⟩ }
  restore := some
    { id := 0, set := 7, stream := 2, reqFirst := 0, reqLast := 9, pref := 0, twinCopy := false, effFirst := 0, effLast := 9
      volumes := [], current := 0, phase := .waitingDest, expected := 1, gap := false, cursor := 9, openPrefix := none
      destBase := 0x400000, destSize := 64, pointer := 0x400040, done := 0, failed := 0, firstFailed := none, written := 64
      damaged := 0, lost := 0, early := false, result := .none } })

/-! ## Witnesses: the path -/

theorem witness_StepRunsFrontCommand :
    ({ calm with pending := [.emptyCode] } : State).pending = .emptyCode :: [] := rfl

theorem witness_ResetLowStops :
    low.pins.resetLow = true ∧ Instr.frameGap ≠ .resetnLow ∧ (∀ d a l, Instr.frameGap ≠ .resetnHigh d a l) := ⟨by decide +kernel, by decide, fun _ _ _ h => nomatch h⟩

theorem witness_ResetHighResets :
    low.pins.resetLow = true := by decide +kernel

theorem witness_MalformedBurstRefused :
    calm.pins.resetLow = false ∧ (wr 4 1).formed = false ∧ calm.findTxn calm.bus.nextId = none ∧ calm.quiet = true := by decide +kernel

/-- A write of `bs.length` beats with these strobes. -/
def strobed (addr : BitVec 32) (beats : Nat) (ss : List Bool) : Txn := ⟨3, true, addr, beats, ss, zeros (8 * beats)⟩

/-- A write in front of the Outcome Word enables no guarded byte. -/
theorem not_guarded {s : Part} {t : Txn} (h : s.rangeHit t = .directive) (b : s.offsetIn t + 8 * t.beats ≤ 0x80) :
    ¬ s.enablesGuarded t := by
  rintro (⟨e, _⟩ | ⟨_, ⟨o, l, _, e, f, _⟩ | ⟨o, l, _, e, f, _⟩ | ⟨o, l, _, e, f, _⟩⟩)
  · exact absurd (h.symm.trans e) (by decide)
  all_goals omega

/-- A write behind the Directive Word splits no word. -/
theorem not_split {s : Part} {t : Txn} (b : 8 ≤ s.offsetIn t) : ¬ s.splitsWord t := by
  rintro ⟨_, ⟨o, _, l, e, _⟩, _⟩
  omega

/-- A write behind the Parameter Block meets no read of it. -/
theorem not_met {s : Part} {t : Txn} (b : 0x80 ≤ s.offsetIn t) : ¬ s.meetsRead t := by
  rintro ⟨_, ⟨o, _, l, e, _⟩, _⟩
  omega

/-- BURST over the Condition Word, from its first and from its last beat of two; DIRECTION; reads of windows. -/
theorem witness_MalformedBurstRefused_ranges :
    pooled.pins.resetLow = false ∧ pooled.findTxn pooled.bus.nextId = none ∧ pooled.quiet = true ∧ pooled.bus.waiting = []
    ∧ (∀ t ∈ [rd 0x100 2, rd 0xF8 2], t.formed = true ∧ t.write = false ∧ pooled.rangeHit t = .directive
        ∧ pooled.offsetIn t ≤ 0x100 ∧ 0x100 < pooled.offsetIn t + 8 * t.beats ∧ t.beats ≠ 1)
    ∧ (rd 0x200FF8 1).formed = true ∧ pooled.rangeHit (rd 0x200FF8 1) = .intake 0
    ∧ (rd 0x710000 16).formed = true ∧ pooled.rangeHit (rd 0x710000 16) = .ret .l0
    ∧ (wr 0x700000 1).formed = true ∧ (wr 0x700000 1).write = true ∧ pooled.rangeHit (wr 0x700000 1) = .send .l0 := by decide +kernel

/-- GUARD at the edges of the guarded ranges: the Outcome Word, the Condition Word, the Status Block and the pool range. -/
theorem witness_MalformedBurstRefused_guard :
    (∀ t ∈ [wr 0x80 1, wr 0x88 1, wr 0x100 1, wr 0x200 1, wr 0xFF8 1, wr 0x13FFF8 1], t.formed = true ∧ t.write = true)
    ∧ pooled.enablesGuarded (wr 0x80 1) ∧ pooled.enablesGuarded (wr 0x88 1) ∧ pooled.enablesGuarded (wr 0x100 1)
    ∧ pooled.enablesGuarded (wr 0x200 1) ∧ pooled.enablesGuarded (wr 0xFF8 1) ∧ pooled.enablesGuarded (wr 0x13FFF8 1) :=
  ⟨by decide +kernel,
   .inr ⟨by decide +kernel, .inl ⟨0x80, by decide +kernel⟩⟩,
   .inr ⟨by decide +kernel, .inl ⟨0x8F, by decide +kernel⟩⟩,
   .inr ⟨by decide +kernel, .inr (.inl ⟨0x107, by decide +kernel⟩)⟩,
   .inr ⟨by decide +kernel, .inr (.inr ⟨0x200, by decide +kernel⟩)⟩,
   .inr ⟨by decide +kernel, .inr (.inr ⟨0xFFF, by decide +kernel⟩)⟩,
   .inl ⟨by decide +kernel, 7, by decide +kernel⟩⟩

/-- STROBE: seven bytes of the Directive Word; a gap, and no byte at all, in a window. -/
theorem witness_MalformedBurstRefused_strobe :
    let part := strobed 0 1 [true, true, true, true, true, true, true, false]
    let gap := strobed 0x200000 1 [true, false, true, false, false, false, false, false]
    let nothing := strobed 0x710000 1 (List.replicate 8 false)
    (part.formed = true ∧ ¬ pooled.enablesGuarded part ∧ pooled.splitsWord part)
    ∧ (gap.formed = true ∧ pooled.rangeHit gap = .intake 0 ∧ ¬ gap.oneRun)
    ∧ (nothing.formed = true ∧ pooled.rangeHit nothing = .ret .l0 ∧ ¬ nothing.oneRun) := by
  refine ⟨⟨by decide +kernel, not_guarded (by decide +kernel) (by decide +kernel), by decide +kernel, ⟨0, by decide +kernel⟩,
      7, by decide +kernel⟩, ⟨by decide +kernel, by decide +kernel, ?_⟩, ⟨by decide +kernel, by decide +kernel, ?_⟩⟩
  · rintro ⟨a, n, _, h⟩
    have := (h 0).mp rfl
    have := (h 2).mp rfl
    exact absurd ((h 1).mpr (by omega)) (by decide)
  · rintro ⟨a, n, l, h⟩
    have e := (h a).mpr (by omega)
    exact absurd (List.eq_of_mem_replicate (List.mem_of_getElem? e)) (by decide)

/-- A write of the Parameter Block that meets the directive's read of it, and joins no line behind a busy port. -/
theorem witness_MalformedBurstRefused_held :
    let s := slotted ported (.busy 0x10 false .parameter)
    s.pins.resetLow = false ∧ s.findTxn s.bus.nextId = none ∧ s.quiet = true ∧ (wr 0x78 1).formed = true
    ∧ ¬ s.enablesGuarded (wr 0x78 1) ∧ ¬ s.splitsWord (wr 0x78 1) ∧ s.meetsRead (wr 0x78 1) ∧ s.bus.port ≠ none
    ∧ s.bus.waiting = [] :=
  ⟨by decide +kernel, by decide +kernel, by decide +kernel, by decide +kernel,
    not_guarded (by decide +kernel) (by decide +kernel), not_split (by decide +kernel),
    ⟨by decide +kernel, ⟨0x7F, by decide +kernel⟩, 0x10, false, .inr rfl⟩, by decide +kernel, by decide +kernel⟩

/-- A part with a busy port and a pool: outside every range, a read of the pool, a write there without a byte, reads on both
sides of the Condition Word, a write of the Directive Word and one behind the Condition Word. -/
theorem witness_TransactionPassesThrough_client :
    let s := bused pooled [] ported.bus.port
    let unstrobed := strobed 0x100000 1 (List.replicate 8 false)
    s.pins.resetLow = false ∧ s.bus.port ≠ none ∧ s.bus.waiting = [] ∧ s.quiet = true
    ∧ ((wr 0x50000000 16).formed = true ∧ s.rangeHit (wr 0x50000000 16) = .other)
    ∧ ((rd 0x100000 16).formed = true ∧ s.rangeHit (rd 0x100000 16) = .pool ∧ (rd 0x100000 16).write = false)
    ∧ (unstrobed.formed = true ∧ s.rangeHit unstrobed = .pool ∧ ¬ s.enablesGuarded unstrobed)
    ∧ ((rd 0xF8 1).formed = true ∧ s.rangeHit (rd 0xF8 1) = .directive ∧ s.offsetIn (rd 0xF8 1) + 8 * (rd 0xF8 1).beats = 0x100)
    ∧ ((rd 0x108 1).formed = true ∧ s.rangeHit (rd 0x108 1) = .directive ∧ 0x100 + 8 = s.offsetIn (rd 0x108 1))
    ∧ ((wr 0 1).formed = true ∧ s.rangeHit (wr 0 1) = .directive ∧ ¬ s.enablesGuarded (wr 0 1) ∧ ¬ s.splitsWord (wr 0 1)
      ∧ ¬ s.meetsRead (wr 0 1))
    ∧ ((wr 0x108 1).formed = true ∧ s.rangeHit (wr 0x108 1) = .directive ∧ ¬ s.enablesGuarded (wr 0x108 1)
      ∧ ¬ s.splitsWord (wr 0x108 1) ∧ ¬ s.meetsRead (wr 0x108 1)) := by
  intro s unstrobed
  have h : s.offsetIn (wr 0x108 1) = 0x108 := by decide +kernel
  have z : s.offsetIn (wr 0 1) = 0 := by decide +kernel
  refine ⟨by decide +kernel, by decide +kernel, by decide +kernel, by decide +kernel, by decide +kernel, by decide +kernel,
    ⟨by decide +kernel, by decide +kernel, ?_⟩, by decide +kernel, by decide +kernel,
    ⟨by decide +kernel, by decide +kernel, not_guarded (by decide +kernel) (by decide +kernel), ?_, ?_⟩,
    ⟨by decide +kernel, by decide +kernel, ?_, not_split (by rw [h]; decide), not_met (by rw [h]; decide)⟩⟩
  · rintro (⟨_, o, _, _, _, _, e⟩ | ⟨e, _⟩)
    · exact absurd (List.eq_of_mem_replicate (List.mem_of_getElem? e)) (by decide)
    · exact absurd e (by decide +kernel)
  · rintro ⟨_, _, o, l, n⟩
    refine n ⟨by omega, by rw [z]; exact Nat.lt_of_lt_of_le l (by decide), ?_⟩
    rw [z]
    exact (by decide : ∀ o, o < 8 → (wr 0 1).strobes[o]? = some true) o l
  · rintro ⟨_, ⟨o, l, _, _, e, _⟩, _⟩
    rw [z] at e
    exact absurd (Nat.lt_of_lt_of_le e (by decide : 0 + 8 * (wr 0 1).beats ≤ 0x40)) (by omega)
  · rintro (⟨e, _⟩ | ⟨_, ⟨o, _, l, f, _⟩ | ⟨o, _, l, f, _⟩ | ⟨o, l, _, _, f, _⟩⟩)
    · exact absurd e (by decide +kernel)
    · omega
    · omega
    · rw [h] at f
      exact absurd (Nat.lt_of_lt_of_le f (by decide : 0x108 + 8 * (wr 0x108 1).beats ≤ 0x110)) (by omega)

theorem witness_TransactionPassesThrough_answer :
    let s := bused calm [⟨4, rd 0x1000 2, .line, none⟩] (some (.client 4 (rd 0x1000 2)))
    s.pins.resetLow = false ∧ s.bus.port = some (.client 4 (rd 0x1000 2)) ∧ s.bus.waiting = [⟨4, rd 0x1000 2, .line, none⟩]
    ∧ s.rangeHit (rd 0x1000 2) ≠ .directive
    ∧ (zeros 16).length = (if (rd 0x1000 2).write then 0 else 8 * (rd 0x1000 2).beats) ∧ s.quiet = true := by decide +kernel

/-- A read over the Condition Mask's first byte and the one in front of it. -/
theorem witness_TransactionPassesThrough_mask :
    let s := bused calm [⟨4, rd 0x100 2, .line, none⟩] (some (.client 4 (rd 0x100 2)))
    s.pins.resetLow = false ∧ s.rangeHit (rd 0x100 2) = .directive ∧ s.offsetIn (rd 0x100 2) + 8 = 0x108
    ∧ (zeros 16).length = (if (rd 0x100 2).write then 0 else 8 * (rd 0x100 2).beats) ∧ s.quiet = true := by decide +kernel

/-- Memory has taken a directive write, and a write of five bytes of the Condition Mask. -/
theorem witness_TransactionPassesThrough_taken :
    let word : Txn := ⟨3, true, 0, 1, List.replicate 8 true, 0x02 :: zeros 7⟩
    let part : Txn := ⟨3, true, 0x108, 1, [true, false, true, false, true, true, true, false], [0xFF, 1, 2, 3, 4, 5, 6, 7]⟩
    let s := fun (t : Txn) => bused calm [⟨4, t, .line, none⟩] (some (.client 4 t))
    let mask := fun (t : Txn) (m : BitVec 64) => ∀ n : Fin 64, m.getLsbD n.val =
      if t.enablesAt ((s t).offsetIn t) (0x108 + n.val / 8) then
        (byteAt t.data (0x108 + n.val / 8 - (s t).offsetIn t)).getLsbD (n.val % 8) else (s t).unit.mask.getLsbD n.val
    let whole := fun (t : Txn) => ∀ o, o < 8 → t.enablesAt ((s t).offsetIn t) o
    (∀ t ∈ [word, part], (s t).pins.resetLow = false ∧ (s t).bus.port = some (.client 4 t)
      ∧ (s t).bus.waiting = [⟨4, t, .line, none⟩] ∧ (s t).rangeHit t = .directive ∧ t.write = true)
    ∧ mask word 0 ∧ whole word ∧ mask part 0x00060504000200FF ∧ ¬ whole part := by decide +kernel

/-- Two Condition Word reads of another tag, and a decided answer behind one that still waits for memory. -/
theorem witness_AnswersKeepTagOrder :
    let c : Txn := ⟨5, false, 0x100, 1, [], []⟩
    let s := bused calm [⟨1, rd 0 1, .line, none⟩, ⟨2, rd 8 1, .ready ⟨3, true, none, zeros 8⟩, none⟩, ⟨3, c, .cond, none⟩, ⟨4, c, .cond, none⟩] none
    ∀ w ∈ s.bus.waiting, ∀ a, w.wait = .ready a → a.tag = w.txn.tag := by
  intro c s w hw a ha
  simp only [s, bused, put, List.mem_cons, List.not_mem_nil, or_false] at hw
  rcases hw with rfl | rfl | rfl | rfl <;> cases ha
  rfl

theorem witness_ConditionReadClears :
    calm.pins.resetLow = false ∧ calm.classify (rd 0x100 1) = .cond ∧ calm.bus.waiting = [] ∧ calm.quiet = true := by decide +kernel

theorem witness_MaskTakesEnabledBytes :
    calm.pins.resetLow = false := by decide +kernel

theorem witness_LevelAttnFollows :
    calm.pins.resetLow = false ∧ Instr.frameGap ≠ .resetnLow ∧ (∀ d a l, Instr.frameGap ≠ .resetnHigh d a l)
    ∧ ∃ t, exec .frameGap calm = .next t ∧ t.unit.pulseMode = false :=
  ⟨by decide +kernel, by decide, (fun _ _ _ h => by cases h), _, rfl, by decide +kernel⟩

/-! ## Witnesses: streams, pool, blocks -/

theorem witness_IntakeWriteTaken :
    let s := stream .record (fun x => { x with declared := 256, recTaken := 128, taken := 128, intake := zeros 128, current := some 0 })
    let t := wr 0x200080 16
    s.pins.resetLow = false ∧ s.classify t = .intake 0 128 ∧ s.bus.waiting = [] ∧ (s.stream 0).state = .record
    ∧ 128 = (s.stream 0).taken % s.intakeSize 0 ∧ (s.stream 0).recTaken + (enabledBytes t).length = (s.stream 0).declared
    ∧ (s.stream 0).recTaken + (enabledBytes t).length ≤ 2 ^ 36 - 1
    ∧ (s.stream 0).intake.length + (enabledBytes t).length = 256 ∧ s.quiet = true := by decide +kernel

theorem witness_IntakeWriteRefused :
    let t := wr 0x200000 1
    let none := stream .idle id
    let away := stream .record (fun x => { x with taken := 8 })
    let past := stream .record (fun x => { x with declared := 7 })
    (none.classify t = .intake 0 0 ∧ none.bus.waiting = [] ∧ none.quiet = true ∧ (none.stream 0).state ≠ .record)
    ∧ (away.classify t = .intake 0 0 ∧ away.bus.waiting = [] ∧ away.quiet = true ∧ (away.stream 0).state = .record
      ∧ 0 ≠ (away.stream 0).taken % away.intakeSize 0)
    ∧ (past.classify t = .intake 0 0 ∧ past.bus.waiting = [] ∧ past.quiet = true ∧ (past.stream 0).state = .record
      ∧ 0 = (past.stream 0).taken % past.intakeSize 0
      ∧ (past.stream 0).declared ≠ 0 ∧ (past.stream 0).declared + 1 = (past.stream 0).recTaken + (enabledBytes t).length) := by decide +kernel

theorem witness_IntakeWriteHeld :
    let s := stream .record (fun x => { x with recTaken := 128, taken := 128, intake := zeros 129, current := some 0 })
    let t := wr 0x200080 16
    s.pins.resetLow = false ∧ s.classify t = .intake 0 128 ∧ s.bus.waiting = [] ∧ (s.stream 0).state = .record
    ∧ 128 = (s.stream 0).taken % s.intakeSize 0 ∧ (s.stream 0).declared = 0
    ∧ (s.stream 0).recTaken + (enabledBytes t).length ≤ 2 ^ 36 - 1
    ∧ 256 + 1 = (s.stream 0).intake.length + (enabledBytes t).length ∧ s.quiet = true := by decide +kernel

theorem witness_HoldLimitStalls :
    let s := bused (stream .record id) [⟨5, wr 0x200000 1, .intake 0 0 0, some 0⟩] none
    s.pins.resetLow = false ∧ s.bus.waiting = [⟨5, wr 0x200000 1, .intake 0 0 0, some 0⟩] ∧ (wr 0x200000 1).write = true ∧ 0 + 0 ≤ s.now := by decide +kernel

theorem witness_EncoderTakesByte :
    let s := stream .ending (fun x => { x with intake := [9], pack := { x.pack with look := zeros 65 } })
    s.pins.resetLow = false ∧ s.bus.waiting = [] ∧ (s.stream 0).intake = 9 :: []
    ∧ ((s.stream 0).state = .record ∨ (s.stream 0).state = .ending) ∧ (s.stream 0).waiting = []
    ∧ (s.stream 0).pack.look.length + 1 = 66 := by decide +kernel

/-- A packing state in the middle of a record of zeros, its literal run one byte short of full. -/
theorem witness_DecisionLosesNoByte :
    let k : Packing := { Packing.empty with pos := 63, known := 64, look := [7], hist := zeros 63, lit := zeros 63,
                                            head := [(0, 60)], waitIns := [62] }
    k.look ≠ [] ∧ k.lit.length + 1 = 64 ∧ k.Agrees (zeros 63) := by
  refine ⟨by decide +kernel, by decide +kernel, ⟨by decide +kernel, by decide +kernel, by decide +kernel, List.suffix_refl _, ?_, ?_⟩⟩
  all_goals decide +kernel

theorem witness_DecisionFillsSegment :
    let g : Segment := ⟨0, 0, true, false, List.replicate 62 (.lit (zeros 64)) ++ [.lit (zeros 63)], 0⟩
    let s := stream .record (fun x => { x with seg := .filling g, pack := { x.pack with look := zeros 66 } })
    s.pins.resetLow = false ∧ ((s.stream 0).state = .record ∨ (s.stream 0).state = .ending) ∧ (s.stream 0).waiting = []
    ∧ (s.stream 0).seg = .filling g ∧ (s.stream 0).pack.look.length = 66
    ∧ packedLength g.tokens + packedLength (s.stream 0).pack.decision.2 = 4096
    ∧ ¬ ((s.stream 0).pack.decision.1.ended = true ∧ (s.stream 0).pack.decision.1.look = []) := by decide +kernel

theorem witness_IdleTimersClose :
    let s := stream .record (fun x => { x with seg := .filling seg, idle := some ⟨0, 0⟩ })
    let b := put pooled (fun p => p.setAsm .l0 { p.asm .l0 with openBlock := some 7, timer := some ⟨0, 0⟩ })
    let d := put (twinned 12288 1) (fun p => p.setAsm .l0 { p.asm .l0 with openBlock := some 7, timer := some ⟨0, 0⟩ })
    (s.pins.resetLow = false ∧ (s.stream 0).idle = some ⟨0, 0⟩ ∧ 0 + 0 ≤ s.now ∧ (s.stream 0).seg = .filling seg
      ∧ (s.stream 0).lane = some .l0)
    ∧ (b.pins.resetLow = false ∧ b.twin.on = false ∧ (b.asm .l0).timer = some ⟨0, 0⟩ ∧ 0 + 0 ≤ b.now
      ∧ (b.asm .l0).openBlock = some 7 ∧ 7 < b.pool.buffers.length)
    ∧ (d.pins.resetLow = false ∧ (d.asm .l0).timer = some ⟨0, 0⟩ ∧ 0 + 0 ≤ d.now ∧ (d.asm .l0).openBlock = some 7
      ∧ 7 < d.pool.buffers.length ∧ d.twin.on = true ∧ .l0 = d.twin.primary ∧ (d.lane LaneId.l0.other).run.isOpen = true) := by decide +kernel

/-- Stream 0's closed segment is the head of lane 0's offers, with an open block and a free list. -/
def offered (g : Segment) (block : Option Nat) (used segments : Nat) (free : List Nat) : State :=
  put (laned (stream .ending (fun x => { x with seg := .closed g, current := some 4 }))
      (fun l => { l with run := { l.run with isOpen := true } }))
    (fun p => ({ p with pool := { p.pool with free := free } }.setBuffer 0
      { Buffer.blank with state := .filling, used := used, segments := segments }).setAsm .l0
      { p.asm .l0 with offers := [0], openBlock := block })

/-- The entry fits with 32 bytes over and becomes the 254th of its block. -/
theorem witness_SegmentAppendedWhole :
    let s := offered seg (some 0) 32660 253 []
    s.pins.resetLow = false ∧ (s.lane .l0).run.isOpen = true ∧ (s.lane .l0).run.stopAfter = false ∧ (s.lane .l0).state ≠ .fault
    ∧ s.pool.geometry ≠ none ∧ (s.asm .l0).offers = 0 :: [] ∧ (s.asm .l0).remainder = none ∧ (s.asm .l0).mark = none
    ∧ (s.asm .l0).openBlock = some 0 ∧ (s.stream 0).seg = .closed seg ∧ (s.stream 0).waiting = [] ∧ (s.stream 0).flush = false
    ∧ packedLength seg.tokens ≤ 4096 ∧ seg.index < 2 ^ 32 - 1
    ∧ (s.buffer 0).used + (20 + packedLength seg.tokens + (if seg.last then 4 else 0)) + 32 = 32720
    ∧ (s.buffer 0).segments + 1 = 254 ∧ 0 < s.pool.buffers.length ∧ s.quiet = true := by decide +kernel

/-- No open block: four buffers free, of which three stay, or none. -/
theorem witness_SegmentAppendedWhole_taken :
    let s := offered seg none 0 0 [7, 3, 4, 5]
    let n := offered seg none 0 0 []
    (∀ x ∈ [s, n], x.pins.resetLow = false ∧ (x.lane .l0).run.isOpen = true ∧ (x.lane .l0).run.stopAfter = false
      ∧ (x.lane .l0).state ≠ .fault ∧ x.pool.geometry ≠ none ∧ (x.asm .l0).offers = 0 :: [] ∧ (x.asm .l0).remainder = none
      ∧ (x.asm .l0).mark = none ∧ (x.asm .l0).openBlock = none ∧ (x.stream 0).seg = .closed seg ∧ (x.stream 0).waiting = []
      ∧ (x.stream 0).flush = false ∧ x.quiet = true)
    ∧ s.pool.free = 7 :: [3, 4, 5] ∧ [3, 4, 5].length + 1 = 4 ∧ 7 < s.pool.buffers.length ∧ n.pool.free = [] := by decide +kernel

/-- Entries that do not fit: two tokens of three go in front; all three do, and the check alone stays behind. -/
theorem witness_SegmentAppendedWhole_split :
    let g : Segment := ⟨5, 100, false, true, [.lit (zeros 15), .rep 5 7, .copy 3 9], 77⟩
    let s := fun (room : Nat) => offered g (some 0) (32720 - room) 3 [7, 3]
    (∀ n ∈ [38, 40], (s n).pins.resetLow = false ∧ (s n).twin.on = false ∧ ((s n).lane .l0).run.isOpen = true
      ∧ ((s n).lane .l0).run.stopAfter = false ∧ ((s n).lane .l0).state ≠ .fault ∧ (s n).pool.geometry ≠ none
      ∧ ((s n).asm .l0).offers = 0 :: [] ∧ ((s n).asm .l0).remainder = none ∧ ((s n).asm .l0).mark = none
      ∧ ((s n).asm .l0).openBlock = some 0 ∧ ((s n).stream 0).seg = .closed g ∧ ((s n).stream 0).waiting = []
      ∧ ((s n).stream 0).flush = false ∧ (s n).pool.free = 7 :: [3] ∧ 0 < (s n).pool.buffers.length ∧ 7 < (s n).pool.buffers.length
      ∧ ((s n).buffer 0).used + n = 32720 ∧ n < 20 + packedLength g.tokens + 4 ∧ (s n).quiet = true)
    ∧ packedLength g.tokens ≤ 4096 ∧ g.index < 2 ^ 32 - 2
    ∧ g.tokens = [.lit (zeros 15), .rep 5 7] ++ [.copy 3 9] ∧ 20 + packedLength [.lit (zeros 15), .rep 5 7] = 38
    ∧ 38 < 20 + packedLength ([.lit (zeros 15), .rep 5 7] ++ [.copy 3 9])
    ∧ g.tokens = g.tokens ++ [] ∧ 20 + packedLength g.tokens = 40 := by decide +kernel

/-! ## Witnesses: lanes and own accesses -/

theorem witness_OrderDelivered :
    let s := laned pooled (fun l => { l with state := .unloading, pending := some .unload })
    s.pins.resetLow = false ∧ s.classify (rd 0x700000 4) = .send .l0 0 ∧ (rd 0x700000 4).beats = 4 ∧ s.bus.waiting = []
    ∧ (s.lane .l0).held = false ∧ (s.lane .l0).state ≠ .fault ∧ (s.lane .l0).committed = false
    ∧ (s.lane .l0).pending = some .unload ∧ s.quiet = true := by decide +kernel

theorem witness_OrderDelivered_seek :
    let s := laned pooled (fun l => { l with state := .reading, pending := some (.seek 1 64) })
    s.pins.resetLow = false ∧ s.classify (rd 0x700000 4) = .send .l0 0 ∧ s.bus.waiting = []
    ∧ (s.lane .l0).held = false ∧ (s.lane .l0).state ≠ .fault ∧ (s.lane .l0).committed = false
    ∧ (s.lane .l0).pending = some (.seek 1 64) ∧ s.quiet = true := by decide +kernel

theorem witness_SendReadServedOrReleased :
    let a : OwnAccess := readBurst (.poolRead .l0 5) 0x107F70 16
    let v : Serving := ⟨2, .data ⟨0, some 1, 0, false⟩ 1, 32624, true, some ⟨0, 0⟩, zeros 32, 0, 0, []⟩
    let s := laned (bused pooled [⟨5, rd 0x707F70 16, .send .l0 2 32624, none⟩] (some (.own a false))) (fun l => { l with serving := some v })
    s.pins.resetLow = false ∧ s.bus.port = some (.own a false) ∧ a.kind = .poolRead .l0 5
    ∧ s.bus.waiting = [⟨5, rd 0x707F70 16, .send .l0 v.id 32624, none⟩] ∧ (s.lane .l0).serving = some v
    ∧ v.item = .data ⟨0, some 1, 0, false⟩ 1 ∧ v.committed = true ∧ 32 ≤ 32624 ∧ 32624 + 8 * (rd 0x707F70 16).beats = 32752
    ∧ (zeros 128).length = 8 * a.beats ∧ a.beats = (rd 0x707F70 16).beats ∧ s.quiet = true
    ∧ v.timer = some ⟨0, 0⟩ ∧ 0 + 0 ≤ s.now := by decide +kernel

/-- The last read of a DATA block, beside a second entry that waits. -/
theorem witness_SendReadServedOrReleased_sent :
    let e : QueueEntry := ⟨0, some 1, 0, false⟩
    let v : Serving := ⟨2, .data e 1, 32752, true, some ⟨0, 0⟩, zeros 32, 11, 12, []⟩
    let s := laned appending (fun l => { l with serving := some v, queue := [e, ⟨1, none, 0, false⟩] })
    s.pins.resetLow = false ∧ s.classify (rd 0x707FF0 2) = .send .l0 32752 ∧ (rd 0x707FF0 2).beats = 2 ∧ s.bus.waiting = []
    ∧ (s.lane .l0).serving = some v ∧ v.item = .data e 1 ∧ v.committed = true ∧ v.next = 32752
    ∧ (s.lane .l0).queue = e :: [⟨1, none, 0, false⟩] ∧ s.quiet = true := by decide +kernel

/-- The last read of a LABEL, its cartridge chosen by the other lane too. -/
theorem witness_SendReadServedOrReleased_label :
    let v : Serving := ⟨2, .label 0, 32752, true, some ⟨0, 0⟩, zeros 32, 11, 12, []⟩
    let s := laned (elsewhere false) (fun l => { l with state := .labelling, serving := some v, pending := some (.label 0) })
    let n := (s.lane .l0).volume
    s.pins.resetLow = false ∧ s.classify (rd 0x707FF0 2) = .send .l0 32752 ∧ (rd 0x707FF0 2).beats = 2 ∧ s.bus.waiting = []
    ∧ (s.lane .l0).serving = some v ∧ v.item = .label 0 ∧ v.committed = true ∧ v.next = 32752 ∧ n.map (·.label) = some (lab 1)
    ∧ (s.lane LaneId.l0.other).run.chosen = some ⟨lab 1, some 4, false⟩ ∧ s.quiet = true := by decide +kernel

/-- The last read of a DATA block in a twin run, bringing positions used to the limit less 80. -/
theorem witness_SendReadServedOrReleased_warned :
    let e : QueueEntry := ⟨0, some 1, 0, false⟩
    let v : Serving := ⟨2, .data e 1, 32752, true, some ⟨0, 0⟩, zeros 32, 11, 12, []⟩
    let s := laned (twinned 100 19) (fun l => { l with serving := some v, queue := [e] })
    let calm := fun (j : LaneId) => (s.lane j).restore = none ∧ (s.lane j).verify = none ∧ (s.lane j).access.loan = .none
      ∧ (s.lane j).owedEov = none ∧ (s.asm j).openBlock = none
    s.pins.resetLow = false ∧ s.classify (rd 0x707FF0 2) = .send .l0 32752 ∧ s.bus.waiting = []
    ∧ (s.lane .l0).serving = some v ∧ (s.lane .l0).queue = [e] ∧ s.twinRun = true ∧ (s.lane .l0).state = .append
    ∧ (s.lane LaneId.l0.other).state = .append ∧ (s.lane .l0).volume.map (·.positions + 81) = some (s.lane .l0).run.limit
    ∧ calm .l0 ∧ calm LaneId.l0.other := by decide +kernel

/-- The third write is away from the return in progress; the fourth stands where a return was cut off. -/
theorem witness_ReturnWritesTakenOrRefused :
    let t := wr 0x710000 3
    let u := wr 0x710008 3
    let w := wr 0x710000 4
    let c := laned pooled (fun l => { l with state := .fault, code := .echoTimeout, cut := some 24 })
    (pooled.pins.resetLow = false ∧ pooled.classify t = .ret .l0 0 ∧ pooled.bus.waiting = [] ∧ (enabledBytes t).length < 32
      ∧ pooled.quiet = true)
    ∧ (pooled.classify u = .ret .l0 8 ∧ (8 : Nat) ≠ 0 ∧ (pooled.lane .l0).ret = none)
    ∧ (pooled.classify w = .ret .l0 0 ∧ (enabledBytes w).length = 32 ∧ returnKind ((enabledBytes w).take 32) = none)
    ∧ (c.pins.resetLow = false ∧ c.classify (wr 0x710018 1) = .ret .l0 24 ∧ c.bus.waiting = [] ∧ c.quiet = true
      ∧ (c.lane .l0).ret = none ∧ (c.lane .l0).cut = some 24 ∧ c.classify u = .ret .l0 8) := by decide +kernel

theorem witness_LaneTimersFault :
    let e : SentEntry := ⟨.label, 0, 0, false, 0, 0, 0⟩
    let s := put (laned appending (fun l => { l with sent := [e], outstanding := some ⟨none, some ⟨0, 5⟩⟩, ret := some ⟨zeros 24, Fold.start, Fold.start⟩ }))
      (fun p => { p with now := 60000000 })
    s.pins.resetLow = false ∧ s.quiet = true ∧ (s.lane .l0).state ≠ .fault ∧ (s.lane .l0).sent = e :: []
    ∧ e.sentAt + 60000000 = s.now ∧ (s.lane .l0).outstanding = some ⟨none, some ⟨0, 5⟩⟩ ∧ 0 + 5 ≤ s.now := by decide +kernel

theorem witness_OwnAccessesAnswered :
    let a := writeBurst (.poolWrite .l0 0 0) 0x100000 (zeros 8)
    let b := writeBurst (.status .pool true) 0x380 (zeros 8)
    let s := bused pooled [] (some (.own a false))
    let t := put (bused pooled [] (some (.own b false))) (fun p => { p with status := [⟨.pool, 4, true, false⟩] })
    (s.pins.resetLow = false ∧ s.bus.port = some (.own a false) ∧ a.kind = .poolWrite .l0 0 0 ∧ s.quiet = true
      ∧ s.touched = [] ∧ s.bus.clientLine = [] ∧ s.bus.ownLine = [])
    ∧ (t.pins.resetLow = false ∧ t.bus.port = some (.own b false) ∧ b.kind = .status .pool true
      ∧ t.status.find? (fun t => t.sec == .pool) = some ⟨.pool, 4, true, false⟩ ∧ t.touched = []) := by decide +kernel

/-- Both lines wait, either of them served last. -/
theorem witness_OwnAccessesAnswered_lines :
    let a := writeBurst (.poolWrite .l0 0 0) 0x100000 (zeros 8)
    let b := readBurst .parameter 0x40 8
    let s := fun (l : Line) => put (bused pooled [] (some (.own a false))) (fun p => { p with
      bus := { p.bus with clientLine := [(7, wr 0x400 1)], ownLine := [b], lastServed := l } })
    ∀ l ∈ [Line.client, .own], (s l).pins.resetLow = false ∧ (s l).bus.port = some (.own a false) ∧ (s l).quiet = true
      ∧ (s l).touched = [] ∧ (s l).bus.clientLine = [(7, wr 0x400 1)] ∧ (s l).bus.ownLine = [b] ∧ (s l).bus.lastServed = l := by
  decide +kernel

/-- The last access of an update of a stale section is on the port; SET HOLD changes the map, whose update is over or not. -/
theorem witness_OwnAccessesAnswered_written :
    let b := writeBurst (.status .pool true) 0x380 (zeros 8)
    let t := put (bused pooled [] (some (.own b false))) (fun p => { p with status := [⟨.pool, 2 ^ 32 - 1, true, true⟩] })
    let s := fun (unanswered : Bool) => put calm (fun p => { p with status := [⟨.map, 2 ^ 32 - 1, unanswered, false⟩] })
    (t.pins.resetLow = false ∧ t.bus.port = some (.own b false) ∧ b.kind = .status .pool true
      ∧ t.status.find? (fun t => t.sec == .pool) = some ⟨.pool, 2 ^ 32 - 1, true, true⟩ ∧ t.touched = [])
    ∧ ∀ x, (s x).pins.resetLow = false ∧ (s x).status.find? (fun t => t.sec == .map) = some ⟨.map, 2 ^ 32 - 1, x, false⟩
      ∧ ∃ t, exec (.setHold (lab 1) 1) (s x) = .next t ∧ (s x).library ≠ t.library :=
  ⟨by decide +kernel, fun x => by cases x <;> exact ⟨by decide +kernel, by decide +kernel, _, rfl, by decide +kernel⟩⟩

/-! ## Whole block returns -/

/-- A payload: its first byte, then zeros. -/
def payloadOf (x : Byte) : List Byte := x :: zeros 32719

/-- The fold check of such a payload. -/
def checkOf (x : Byte) : Nat := (32720 * (x.toNat + 1)) % 65521 * 65536 + (x.toNat + 1)

/-- The trailer of a block by its header and the first byte of its payload, `bad` in its header check. -/
def trailerOf (header : List Byte) (bad : Nat) (x : Byte) : List Byte :=
  leBytes 4 (checkOf x) ++ leBytes 4 (foldCheck header + bad) ++ [0x4B, 0x44, 0x53, 0x45] ++ zeros 4

/-- A block by its header and the first byte of its payload. -/
def blockOf (header : List Byte) (bad : Nat) (x : Byte := 0) : List Byte := header ++ payloadOf x ++ trailerOf header bad x

/-- The header of a block of `kind` with a rewrite count, a sequence and used payload bytes. -/
def headerOf (kind rewrites seq used : Nat) : List Byte :=
  [0x4B, 0x44, 0x53, 0x42, byteOf kind, 0, byteOf rewrites, 0] ++ zeros 8 ++ leBytes 4 seq ++ zeros 4 ++ leBytes 2 used ++ zeros 6

/-- The write of the last 128 bytes of such a block. -/
def lastWrite (header : List Byte) (bad : Nat) (x : Byte := 0) : Txn :=
  ⟨3, true, 0x717F80, 16, List.replicate 128 true, zeros 112 ++ trailerOf header bad x⟩

/-- All but the last 128 bytes of such a block. -/
def frontOf (header : List Byte) (x : Byte) : List Byte := header ++ (x :: zeros 32607)

/-- A lane that has all but the last 128 bytes of such a block. -/
def withReturn (header : List Byte) (l : Lane) (x : Byte := 0) : Lane :=
  { l with ret := some ⟨frontOf header x, Fold.start.addAll ((frontOf header x).take 32),
      Fold.start.addAll (slice (frontOf header x) 32 32720)⟩ }

theorem addAll_zeros (n a b : Nat) (g : a < 65521) (h : b < 65521) : Fold.addAll ⟨a, b⟩ (zeros n) = ⟨a, (b + n * a) % 65521⟩ := by
  induction n generalizing b with
  | zero => simp [zeros, Fold.addAll, Nat.mod_eq_of_lt h]
  | succ n ih =>
    have step : Fold.addAll ⟨a, b⟩ (zeros (n + 1)) = Fold.addAll ⟨a % 65521, (b + a % 65521) % 65521⟩ (zeros n) := rfl
    rw [step, Nat.mod_eq_of_lt g, ih _ (Nat.mod_lt _ (by decide)), Nat.succ_mul]
    simp only [Fold.mk.injEq, true_and]; omega

theorem payloadCheck_eq (x : Byte) : foldCheck (payloadOf x) = checkOf x := by
  have l := x.isLt
  have e : ∀ ys, Fold.start.addAll (x :: ys) = Fold.addAll ⟨(1 + x.toNat) % 65521, (0 + (1 + x.toNat) % 65521) % 65521⟩ ys :=
    fun _ => rfl
  rw [foldCheck, payloadOf, e, Nat.mod_eq_of_lt (by omega), addAll_zeros _ _ _ (by omega) (Nat.mod_lt _ (by decide)), Fold.value,
    checkOf]
  dsimp only
  omega

theorem zeros_length (n : Nat) : (zeros n).length = n := List.length_replicate
theorem zeros_add (m n : Nat) : zeros m ++ zeros n = zeros (m + n) := List.replicate_append_replicate
theorem payload_length (x : Byte) : (payloadOf x).length = 32720 := by rw [payloadOf, List.length_cons, zeros_length]
theorem take_append (a b : List Byte) (n : Nat) (h : a.length = n) : (a ++ b).take n = a := by
  rw [← h]; exact List.take_left
theorem slice_append (a b : List Byte) (n k : Nat) (h : a.length = n) : slice (a ++ b) n k = b.take k := by
  rw [slice, ← h, List.drop_left]

theorem block_split (h : List Byte) (bad : Nat) (x : Byte) :
    blockOf h bad x = frontOf h x ++ (zeros 112 ++ trailerOf h bad x) := by
  rw [blockOf, frontOf, payloadOf, ← zeros_add 32607 112]
  simp only [List.append_assoc, List.cons_append]

theorem block_header (h : List Byte) (bad : Nat) (x : Byte) (n : h.length = 32) : (blockOf h bad x).take 32 = h := by
  rw [blockOf, List.append_assoc, take_append _ _ _ n]

/-- The first byte of the payload. -/
theorem block_first (h : List Byte) (bad : Nat) (x : Byte) (n : h.length = 32) : byteAt (blockOf h bad x) 32 = x := by
  rw [blockOf, List.append_assoc, byteAt, List.getD_append_right _ _ _ _ (by omega), n]; rfl

theorem slice_middle (a b c : List Byte) (m n : Nat) (h : a.length = m) (k : b.length = n) : slice (a ++ b ++ c) m n = b := by
  rw [List.append_assoc, slice_append _ _ _ _ h, take_append _ _ _ k]
theorem slice_end (a b c : List Byte) (m n k : Nat) (h : a.length = m) (e : b.length = n) (f : c.length = k) :
    slice (a ++ b ++ c) (m + n) k = c := by
  rw [slice_append _ _ (m + n) _ (by rw [List.length_append, h, e]), ← f, List.take_length]

theorem block_payload (h : List Byte) (bad : Nat) (x : Byte) (n : h.length = 32) : slice (blockOf h bad x) 32 32720 = payloadOf x :=
  slice_middle h _ _ _ _ n (payload_length x)

theorem block_trailer (h : List Byte) (bad : Nat) (x : Byte) (n : h.length = 32) : slice (blockOf h bad x) 32752 16 = trailerOf h bad x :=
  slice_end h _ _ 32 32720 16 n (payload_length x) rfl

theorem enabledBytes_all (tag : BitVec 4) (addr : BitVec 32) (beats n : Nat) (data : List Byte) (h : data.length = n := by rfl) :
    enabledBytes ⟨tag, true, addr, beats, List.replicate n true, data⟩ = data := by
  subst h
  induction data with
  | nil => rfl
  | cons x xs ih => simpa [enabledBytes, List.replicate_succ] using ih

theorem lastWrite_bytes (h : List Byte) (bad : Nat) (x : Byte) :
    enabledBytes (lastWrite h bad x) = zeros 112 ++ trailerOf h bad x :=
  enabledBytes_all _ _ _ _ _

/-- Such a lane and such a write complete the block. -/
theorem returning_completes (s : State) (h : List Byte) (bad : Nat) (l : Lane) (n : h.length = 32)
    (m : h.take 4 = [0x4B, 0x44, 0x53, 0x42]) (r : s.pins.resetLow = false) (w : s.bus.waiting = []) (x : Byte)
    (c : s.classify (lastWrite h bad x) = .ret .l0 32640) :
    (laned s (fun _ => withReturn h l x)).completesReturn (lastWrite h bad x) .l0 (blockOf h bad x) := by
  have len : (frontOf h x).length = 32640 := by rw [frontOf, List.length_append, n, List.length_cons, zeros_length]
  refine ⟨r, w, ?_, ?_, _, rfl, ?_, ?_, ?_, ?_, rfl, rfl⟩
  · rw [block_split, List.length_append, len]; rfl
  · rw [block_split, frontOf, List.append_assoc, List.take_append_of_le_length (by omega), m]
  · show 32 ≤ (frontOf h x).length; omega
  · show (laned s (fun _ => withReturn h l x)).classify (lastWrite h bad x) = .ret .l0 (frontOf h x).length
    rw [len]; exact c
  · rw [lastWrite_bytes, block_split]
  · rw [lastWrite_bytes]; exact List.cons_ne_nil _ _

theorem field_header (h : List Byte) (bad : Nat) (x : Byte) (off k : Nat) (n : h.length = 32) (le : off + k ≤ 32) :
    field (blockOf h bad x) off k = field h off k := by
  have : off ≤ h.length := by omega
  rw [field, field, slice, slice, blockOf, List.append_assoc, List.drop_append_of_le_length this,
    List.take_append_of_le_length (by rw [List.length_drop]; omega)]

theorem slice_slice (b : List Byte) (o i k n : Nat) (h : i + k ≤ n) : slice b (o + i) k = slice (slice b o n) i k := by
  rw [slice, slice, slice, List.drop_take, List.take_take, List.drop_drop, Nat.min_eq_left (by omega)]

theorem leNat_leBytes (k n : Nat) (h : n < 256 ^ k) : leNat (leBytes k n) = n := by
  induction k generalizing n with
  | zero => simp only [Nat.pow_zero, Nat.lt_one_iff] at h; subst h; rfl
  | succ k ih =>
    show (byteOf n).toNat + 256 * leNat (leBytes k (n / 256)) = n
    rw [ih _ (by rw [Nat.pow_succ] at h; omega)]
    simp only [byteOf, BitVec.toNat_ofNat]; omega

theorem checkOf_lt (x : Byte) : checkOf x < 256 ^ 4 := by
  have := x.isLt
  rw [checkOf]; omega

/-- What the checks of R159 find in such a block. -/
theorem block_good (h : List Byte) (bad : Nat) (x : Byte) (n : h.length = 32) :
    foldCheck ((blockOf h bad x).take 32) = foldCheck h ∧ foldCheck (slice (blockOf h bad x) 32 32720) = checkOf x
    ∧ field (blockOf h bad x) 32752 4 = checkOf x ∧ field (blockOf h bad x) 32756 4 = leNat (leBytes 4 (foldCheck h + bad))
    ∧ slice (blockOf h bad x) 32760 4 = [0x4B, 0x44, 0x53, 0x45] := by
  refine ⟨by rw [block_header _ _ _ n], by rw [block_payload _ _ _ n, payloadCheck_eq], ?_, ?_, ?_⟩
  · have e : slice (slice (blockOf h bad x) 32752 16) 0 4 = leBytes 4 (checkOf x) := by rw [block_trailer _ _ _ n]; rfl
    rw [field, slice_slice _ 32752 0 4 16 (by decide), e, leNat_leBytes _ _ (checkOf_lt x)]
  · have e : slice (slice (blockOf h bad x) 32752 16) 4 4 = leBytes 4 (foldCheck h + bad) := by rw [block_trailer _ _ _ n]; rfl
    rw [field, slice_slice _ 32752 4 4 16 (by decide), e]
  · rw [slice_slice _ 32752 8 4 16 (by decide), block_trailer _ _ _ n]; rfl

/-! ## Witnesses: returns judged -/

/-- A restore of sequences 1 to 97 that expects sequence 3, its chunk 1 to 64 outstanding. -/
def readLane : Lane := { State.reset.lane .l0 with
  state := .reading, outstanding := some ⟨some (1, 64), none⟩, access := { Access.none with chunk := some (1, 64) }
  restore := some
    { id := 0, set := 7, stream := 2, reqFirst := 0, reqLast := 9, pref := 0, twinCopy := false, effFirst := 0, effLast := 9
      volumes := [⟨lab 2, 1, 1, 97, ⟨0, 0, true⟩, ⟨9, 3, true⟩, none, [(3, 5)]⟩], current := 0, phase := .reading, expected := 3
      gap := false, cursor := 9, openPrefix := none, destBase := 0x400000, destSize := 64, pointer := 0x400000, done := 0
      failed := 0, firstFailed := none, written := 0, damaged := 0, lost := 0, early := false, result := .none } }

/-- A READ of sequence 4 with the rewrite count of its one run is accepted; one of sequence 64 with a rewrite too many is
damaged; one past the chunk, of sequence 65, is skipped. -/
theorem witness_ReturnWritesTakenOrRefused_read :
    let s := fun (h : List Byte) => laned pooled (fun _ => withReturn h readLane)
    let good := headerOf 2 1 4 32720
    let more := headerOf 2 1 64 100
    let past := headerOf 2 0 65 100
    let runs := fun (seq : Nat) => (([(3, 5)] : List (Nat × Nat)).filter (fun r => r.1 ≤ seq ∧ seq ≤ r.2)).length
    ((s good).completesReturn (lastWrite good 0) .l0 (blockOf good 0)
      ∧ readLane.outstanding = some ⟨some (1, 64), none⟩ ∧ (readLane.restore.map (fun j => (j.phase, j.cursor, j.effLast, j.expected))) = some (.reading, 9, 9, 3)
      ∧ readLane.access.chunk = some (1, 64) ∧ field (blockOf good 0) 16 4 = 4 ∧ ¬ (64 < 4 ∨ 1 < runs 4 ∨ 4 < 3)
      ∧ field (blockOf good 0) 6 1 = runs 4 ∧ field (blockOf good 0) 4 1 = 2
      ∧ foldCheck ((blockOf good 0).take 32) = field (blockOf good 0) 32756 4
      ∧ foldCheck (slice (blockOf good 0) 32 32720) = field (blockOf good 0) 32752 4
      ∧ slice (blockOf good 0) 32760 4 = [0x4B, 0x44, 0x53, 0x45] ∧ field (blockOf good 0) 24 2 = 32720)
    ∧ ((s more).completesReturn (lastWrite more 0) .l0 (blockOf more 0)
      ∧ field (blockOf more 0) 16 4 = 64 ∧ ¬ (64 < 64 ∨ 1 < runs 64 ∨ 64 < 3) ∧ field (blockOf more 0) 6 1 ≠ runs 64)
    ∧ ((s past).completesReturn (lastWrite past 0) .l0 (blockOf past 0) ∧ field (blockOf past 0) 16 4 = 65 ∧ 64 < 65) := by
  intro s good more past runs
  have g := block_good good 0 0 rfl
  refine ⟨⟨returning_completes pooled good 0 readLane rfl rfl (by decide +kernel) (by decide +kernel) 0 (by decide +kernel),
    by decide +kernel, by decide +kernel, by decide +kernel, ?_, by decide +kernel, ?_, ?_, ?_, ?_, g.2.2.2.2, ?_⟩,
    ⟨returning_completes pooled more 0 readLane rfl rfl (by decide +kernel) (by decide +kernel) 0 (by decide +kernel), ?_, by decide +kernel, ?_⟩,
    returning_completes pooled past 0 readLane rfl rfl (by decide +kernel) (by decide +kernel) 0 (by decide +kernel), ?_, by decide⟩
  · rw [field_header _ _ _ _ _ rfl (by decide)]; decide +kernel
  · rw [field_header _ _ _ _ _ rfl (by decide)]; decide +kernel
  · rw [field_header _ _ _ _ _ rfl (by decide)]; decide +kernel
  · rw [g.1, g.2.2.2.1]; decide +kernel
  · rw [g.2.1, g.2.2.1]
  · rw [field_header _ _ _ _ _ rfl (by decide)]; decide +kernel
  · rw [field_header _ _ _ _ _ rfl (by decide)]; decide +kernel
  · rw [field_header _ _ _ _ _ rfl (by decide)]; decide +kernel
  · rw [field_header _ _ _ _ _ rfl (by decide)]; decide +kernel

/-- A verify job of sequences 0 to 98, 97 absent and the EOV 98, that expects `first` in its outstanding chunk. -/
def checkLane (first last : Nat) : Lane := { State.reset.lane .l0 with
  state := .reading, outstanding := some ⟨some (first, last), none⟩, access := { Access.none with chunk := some (first, last) }
  verify := some
    { label := lab 2, verified := 98, eovVerified := true, absentFrom := 97, runs := [(3, 5)], phase := .reading, expected := first
      gaps := Vector.replicate 8 false, kept := [], accepted := 3, damaged := 0, lost := 0, skipped := 0, done := 0, failed := 0
      partials := 0, chunks := 0, firstFailure := none, result := .none } }

/-- A READ in a VERIFY chunk: the LABEL, a DATA block with and without payload after a gap, an EOV with no stream and one that
names 9, a DATA block whose kind is wrong, and one past the chunk. -/
theorem witness_ReturnWritesTakenOrRefused_verify :
    let s := fun (first last : Nat) (h : List Byte) (x : Byte) => laned pooled (fun _ => withReturn h (checkLane first last) x)
    let runs := fun (seq : Nat) => (([(3, 5)] : List (Nat × Nat)).filter (fun r => r.1 ≤ seq ∧ seq ≤ r.2)).length
    let kindOf := fun (seq : Nat) => if seq = 0 then 1 else if seq = 98 ∧ true = true then 3 else 2
    let whole := fun (first last : Nat) (h : List Byte) (x : Byte) =>
      (s first last h x).completesReturn (lastWrite h 0 x) .l0 (blockOf h 0 x)
    let fields := fun (h : List Byte) (x : Byte) =>
      [field (blockOf h 0 x) 4 1, field (blockOf h 0 x) 6 1, field (blockOf h 0 x) 16 4, field (blockOf h 0 x) 24 2]
    let good := fun (h : List Byte) (x : Byte) => foldCheck ((blockOf h 0 x).take 32) = field (blockOf h 0 x) 32756 4
      ∧ foldCheck (slice (blockOf h 0 x) 32 32720) = field (blockOf h 0 x) 32752 4
      ∧ slice (blockOf h 0 x) 32760 4 = [0x4B, 0x44, 0x53, 0x45]
    (∀ a b, (checkLane a b).outstanding = some ⟨some (a, b), none⟩ ∧ (checkLane a b).restore = none
      ∧ (checkLane a b).access.chunk = some (a, b) ∧ (checkLane a b).verify.map (fun j => (j.phase, j.expected)) = some (.reading, a))
    ∧ (whole 0 63 (headerOf 1 0 0 32) 0 ∧ fields (headerOf 1 0 0 32) 0 = [1, 0, 0, 32] ∧ good (headerOf 1 0 0 32) 0
      ∧ runs 0 = 0 ∧ kindOf 0 = 1)
    ∧ (whole 1 64 (headerOf 2 1 5 0) 0 ∧ fields (headerOf 2 1 5 0) 0 = [2, 1, 5, 0] ∧ good (headerOf 2 1 5 0) 0
      ∧ runs 5 = 1 ∧ kindOf 5 = 2)
    ∧ (whole 1 64 (headerOf 2 0 64 32720) 0 ∧ fields (headerOf 2 0 64 32720) 0 = [2, 0, 64, 32720] ∧ good (headerOf 2 0 64 32720) 0
      ∧ runs 64 = 0 ∧ kindOf 64 = 2)
    ∧ (whole 65 98 (headerOf 3 0 98 10) 0 ∧ fields (headerOf 3 0 98 10) 0 = [3, 0, 98, 10] ∧ good (headerOf 3 0 98 10) 0
      ∧ byteAt (blockOf (headerOf 3 0 98 10) 0) 32 = 0 ∧ runs 98 = 0 ∧ kindOf 98 = 3
      ∧ ∀ i, (s 65 98 (headerOf 3 0 98 10) 0).slot .l0 i = .empty)
    ∧ (whole 65 98 (headerOf 3 0 98 10) 9 ∧ fields (headerOf 3 0 98 10) 9 = [3, 0, 98, 10] ∧ good (headerOf 3 0 98 10) 9
      ∧ ((List.range (byteAt (blockOf (headerOf 3 0 98 10) 0 9) 32).toNat).map
          (fun i => (byteAt (blockOf (headerOf 3 0 98 10) 0 9) (33 + 9 * i)).toNat)).length = 8 + 1)
    ∧ (whole 1 64 (headerOf 1 0 64 77) 0 ∧ fields (headerOf 1 0 64 77) 0 = [1, 0, 64, 77] ∧ kindOf 64 ≠ 1)
    ∧ (whole 1 64 (headerOf 2 0 65 77) 0 ∧ fields (headerOf 2 0 65 77) 0 = [2, 0, 65, 77] ∧ 64 < 65) := by
  intro s runs kindOf whole fields good
  have w : ∀ a b h x, h.length = 32 → h.take 4 = [0x4B, 0x44, 0x53, 0x42] →
      pooled.classify (lastWrite h 0 x) = .ret .l0 32640 → whole a b h x := fun a b h x n m c =>
    returning_completes pooled h 0 (checkLane a b) n m (by decide +kernel) (by decide +kernel) x c
  have f : ∀ h x, h.length = 32 → fields h x = [field h 4 1, field h 6 1, field h 16 4, field h 24 2] := fun h x n => by
    show [field (blockOf h 0 x) 4 1, _, _, _] = _
    rw [field_header _ _ _ _ _ n (by decide), field_header _ _ _ _ _ n (by decide), field_header _ _ _ _ _ n (by decide),
      field_header _ _ _ _ _ n (by decide)]
  have g : ∀ h x, h.length = 32 → leNat (leBytes 4 (foldCheck h + 0)) = foldCheck h → good h x := fun h x n e => by
    have b := block_good h 0 x n
    exact ⟨by rw [b.1, b.2.2.2.1, e], by rw [b.2.1, b.2.2.1], b.2.2.2.2⟩
  have one : ∀ {a b h x l}, h.length = 32 → h.take 4 = [0x4B, 0x44, 0x53, 0x42] →
      pooled.classify (lastWrite h 0 x) = .ret .l0 32640 → [field h 4 1, field h 6 1, field h 16 4, field h 24 2] = l →
      leNat (leBytes 4 (foldCheck h + 0)) = foldCheck h → whole a b h x ∧ fields h x = l ∧ good h x :=
    fun n m c k e => ⟨w _ _ _ _ n m c, (f _ _ n).trans k, g _ _ n e⟩
  have label := one (a := 0) (b := 63) (h := headerOf 1 0 0 32) (x := 0) rfl rfl (by decide +kernel) (by decide +kernel : _ = [1, 0, 0, 32]) (by decide +kernel)
  have void := one (a := 1) (b := 64) (h := headerOf 2 1 5 0) (x := 0) rfl rfl (by decide +kernel) (by decide +kernel : _ = [2, 1, 5, 0]) (by decide +kernel)
  have full := one (a := 1) (b := 64) (h := headerOf 2 0 64 32720) (x := 0) rfl rfl (by decide +kernel) (by decide +kernel : _ = [2, 0, 64, 32720]) (by decide +kernel)
  have eov := one (a := 65) (b := 98) (h := headerOf 3 0 98 10) (x := 0) rfl rfl (by decide +kernel) (by decide +kernel : _ = [3, 0, 98, 10]) (by decide +kernel)
  have nine := one (a := 65) (b := 98) (h := headerOf 3 0 98 10) (x := 9) rfl rfl (by decide +kernel) (by decide +kernel : _ = [3, 0, 98, 10]) (by decide +kernel)
  have wrong := one (a := 1) (b := 64) (h := headerOf 1 0 64 77) (x := 0) rfl rfl (by decide +kernel) (by decide +kernel : _ = [1, 0, 64, 77]) (by decide +kernel)
  have past := one (a := 1) (b := 64) (h := headerOf 2 0 65 77) (x := 0) rfl rfl (by decide +kernel) (by decide +kernel : _ = [2, 0, 65, 77]) (by decide +kernel)
  exact ⟨fun a b => ⟨rfl, (by decide +kernel : (State.reset.lane .l0).restore = none), rfl, rfl⟩,
    ⟨label.1, label.2.1, label.2.2, by decide, by decide⟩, ⟨void.1, void.2.1, void.2.2, by decide, by decide⟩,
    ⟨full.1, full.2.1, full.2.2, by decide, by decide⟩,
    ⟨eov.1, eov.2.1, eov.2.2, block_first _ _ _ rfl, by decide, by decide, by decide +kernel⟩,
    ⟨nine.1, nine.2.1, nine.2.2, by rw [List.length_map, List.length_range, block_first _ _ _ rfl]; rfl⟩,
    ⟨wrong.1, wrong.2.1, by decide⟩, past.1, past.2.1, by decide⟩

/-- The write of a short return. -/
def short (kind reason : Byte) : Txn := ⟨3, true, 0x710000, 4, List.replicate 32 true, [0x4B, 0x44, 0x53, 0x52, kind, reason] ++ zeros 26⟩

/-- A short return stands at the start of lane 0's return window. -/
abbrev returnsShort (s : State) (kind reason : Byte) : Prop :=
  s.pins.resetLow = false ∧ s.classify (short kind reason) = .ret .l0 0 ∧ s.bus.waiting = []
  ∧ (enabledBytes (short kind reason)).length = 32
  ∧ (enabledBytes (short kind reason)).take 6 = [0x4B, 0x44, 0x53, 0x52, kind, reason] ∧ (s.lane .l0).state ≠ .fault

/-- The identity check of a restore job that has been sent the SEEK for the label. -/
def identifying (identity : Option Bool) : Lane := { readLane with
  state := .identifying, outstanding := some ⟨some (0, 0), none⟩
  access := { Access.none with chunk := some (0, 0), identity := identity }
  restore := readLane.restore.map (fun j => { j with phase := .identifying, expected := 1 }) }

/-- END, MEDIA and END OF MEDIA to the chunk of a restore and of a verify job, and NO CARTRIDGE to the latter. -/
theorem witness_OrderDelivered_chunk :
    let s := laned pooled (fun _ => readLane)
    let c := laned pooled (fun _ => checkLane 64 98)
    (returnsShort s 1 0 ∧ ∀ r ∈ ([1, 3, 4] : List Byte), returnsShort s 2 r)
    ∧ (returnsShort c 1 0 ∧ ∀ r ∈ ([1, 2, 3, 4] : List Byte), returnsShort c 2 r)
    ∧ readLane.outstanding = some ⟨some (1, 64), none⟩ ∧ readLane.sent = []
    ∧ (readLane.restore.map (fun j => (j.phase, j.cursor, j.effLast, (j.volumes[j.current]?).map (·.lastBlock)))) = some (.reading, 9, 9, some 97)
    ∧ readLane.access.chunk = some (1, 64)
    ∧ (checkLane 64 98).outstanding = some ⟨some (64, 98), none⟩ ∧ (checkLane 64 98).sent = [] ∧ (checkLane 64 98).restore = none
    ∧ (checkLane 64 98).verify.map (·.phase) = some .reading ∧ (checkLane 64 98).access.chunk = some (64, 98) := by
  refine ⟨?_, ?_, ?_⟩ <;> decide +kernel

/-- The same with the return buffer free: sequences are left, none are on the last volume or on the first of two, and with a
restore that waits for the verify job. -/
theorem witness_OrderDelivered_goesOn :
    let two := { readLane with
      access := { readLane.access with chunk := some (34, 97) }
      restore := readLane.restore.map (fun j => { j with volumes := j.volumes ++ [⟨lab 3, 2, 5, 50, ⟨9, 4, false⟩, ⟨9, 6, true⟩, none, []⟩] }) }
    let waits := { checkLane 0 63 with restore := readLane.restore.map (fun j => { j with phase := .waitingVerify }) }
    (∀ l ∈ [readLane, two, checkLane 0 63, checkLane 64 98, waits],
      (returnsShort (laned pooled (fun _ => l)) 1 0 ∧ ∀ r ∈ ([1, 3, 4] : List Byte), returnsShort (laned pooled (fun _ => l)) 2 r)
      ∧ ((laned pooled (fun _ => l)).lane LaneId.l0.other).calm = true)
    ∧ (∀ l ∈ [readLane, two, checkLane 0 63, checkLane 64 98, waits],
      l.state = .reading ∧ l.buffer = none ∧ l.access.walk = none ∧ l.sent = [] ∧ l.outstanding.map (·.seek.isSome) = some true)
    ∧ (readLane.verify = none ∧ two.verify = none ∧ max 3 (64 + 1) ≤ 97 ∧ 97 < max 3 (97 + 1)
      ∧ two.restore.map (fun j => ((j.volumes[j.current]?).map (·.lastBlock), (j.volumes[j.current + 1]?).map (·.firstBlock))) = some (some 97, some 5)
      ∧ (readLane.restore.bind (fun j => j.volumes[j.current + 1]?)) = none)
    ∧ ((checkLane 0 63).restore = none ∧ max 0 (63 + 1) ≤ 98 ∧ 98 < max 64 (98 + 1) ∧ waits.restore.map (·.phase) = some .waitingVerify
      ∧ waits.verify.map (fun j => (j.phase, j.verified)) = some (.reading, 98)) := by
  refine ⟨?_, ?_, ?_, ?_⟩ <;> decide +kernel

/-- END with the identity passed and not decided, and MEDIA and END OF MEDIA, to the identity SEEK. -/
theorem witness_OrderDelivered_identity :
    let s := fun (i : Option Bool) => laned (cart pooled 25 2 .full) (fun _ => identifying i)
    (∀ i ∈ [none, some true, some false], (returnsShort (s i) 1 0 ∧ ∀ r ∈ ([1, 3, 4] : List Byte), returnsShort (s i) 2 r)
      ∧ ((s i).lane LaneId.l0.other).calm = true ∧ ((s i).loc (bay .l0)).occ ≠ .empty)
    ∧ ∀ i, (identifying i).outstanding = some ⟨some (0, 0), none⟩ ∧ (identifying i).sent = [] ∧ (identifying i).verify = none
      ∧ (identifying i).buffer = none ∧ (identifying i).access.walk = none ∧ (identifying i).access.loan = .none
      ∧ (identifying i).access.identity = i
      ∧ (identifying i).restore.map (fun j => (j.phase, j.expected, j.cursor, j.effLast)) = some (.identifying, 1, 9, 9)
      ∧ (identifying i).restore.map (fun j => (j.current, (j.volumes[j.current]?).map (·.lastBlock))) = some (0, some 97) := by
  refine ⟨by decide +kernel, fun i => ?_⟩
  rcases i with _ | _ | _ <;> refine ⟨?_, ?_, ?_, ?_, ?_, ?_, ?_, ?_, ?_⟩ <;> decide +kernel

/-- MEDIA, PROTECTED and END OF MEDIA to a block sent, NO CARTRIDGE too, and to an UNLOAD. -/
theorem witness_OrderDelivered_abandon :
    let s := put (laned appending (fun l => { l with sent := [⟨.data 0, 1, 0, false, 1, 2, 0⟩] }))
      (fun p => { p with span := [{ entry with label := lab 1, mirror := .opened }] })
    let u := laned pooled (fun l => { l with state := .unloading, outstanding := some ⟨none, none⟩ })
    let l := s.lane .l0
    (∀ r ∈ ([1, 2, 3, 4] : List Byte), returnsShort s 2 r ∧ returnsShort u 2 r) ∧ l.sent ≠ [] ∧ l.state = .append
    ∧ l.volume.map (·.label) = some (lab 1) ∧ (s.findSpan (lab 1)).isSome = true ∧ l.restore = none ∧ l.verify = none
    ∧ l.access.loan = .none ∧ (s.lane LaneId.l0.other).calm = true ∧ (s.lane LaneId.l0.other).volume = none
    ∧ (u.lane .l0).sent = [] ∧ (u.lane .l0).outstanding = some ⟨none, none⟩ := by decide +kernel

/-- UNLOADED to a lane of its own, and to the lender of a restore's cartridge on the other lane. -/
theorem witness_OrderDelivered_unloaded :
    let u := laned pooled (fun l => { l with state := .unloading, outstanding := some ⟨none, none⟩ })
    let d := put (laned (cart pooled 25 2 .full) (fun l => { l with
        state := .unloading, outstanding := some ⟨none, none⟩, lending := some ⟨false, false, none⟩ }))
      (fun p => p.setLane .l1 { readLane with
        state := .loading, outstanding := none, access := { Access.none with loan := .unloading }
        restore := readLane.restore.map (fun j => { j with phase := .fetching }) })
    (∀ s ∈ [u, d], returnsShort s 3 0 ∧ (s.lane .l0).outstanding = some ⟨none, none⟩ ∧ s.changer.state ≠ .faulted)
    ∧ (u.lane .l0).lending = none ∧ (d.lane .l0).lending = some ⟨false, false, none⟩
    ∧ d.jobLabel LaneId.l0.other = some (lab 2) := by decide +kernel

/-- Identity READs: a label block that decides, one of a rewritten label that does too, a DATA block, and a second label. -/
theorem witness_ReturnWritesTakenOrRefused_identity :
    let s := fun (i : Option Bool) (h : List Byte) => laned (cart pooled 25 2 .full) (fun _ => withReturn h (identifying i))
    let label := headerOf 1 2 0 32
    let data := headerOf 2 0 1 100
    (∀ i, ∀ h ∈ [label, data], (s i h).completesReturn (lastWrite h 0) .l0 (blockOf h 0) ∧ (s i h).lane .l0 = withReturn h (identifying i)
      ∧ (s i h).jobLabel .l0 = some (lab 2) ∧ (identifying i).outstanding = some ⟨some (0, 0), none⟩
      ∧ (identifying i).restore.map (·.phase) = some .identifying ∧ (identifying i).access.identity = i)
    ∧ (field (blockOf label 0) 4 1 = 1 ∧ field (blockOf label 0) 16 4 = 0
      ∧ foldCheck ((blockOf label 0).take 32) = field (blockOf label 0) 32756 4
      ∧ foldCheck (slice (blockOf label 0) 32 32720) = field (blockOf label 0) 32752 4)
    ∧ field (blockOf data 0) 4 1 ≠ 1 := by
  intro s label data
  have g := block_good label 0 0 rfl
  refine ⟨fun i h m => ⟨returning_completes _ h 0 _ ?_ ?_ ?_ ?_ 0 ?_, lane_modLane_same _ _ _, ?_, rfl, ?_, rfl⟩, ⟨?_, ?_, ?_, ?_⟩, ?_⟩
  · rcases List.mem_pair.mp m with rfl | rfl <;> rfl
  · rcases List.mem_pair.mp m with rfl | rfl <;> rfl
  · decide +kernel
  · decide +kernel
  · rcases List.mem_pair.mp m with rfl | rfl <;> decide +kernel
  · rcases List.mem_pair.mp m with rfl | rfl <;> rcases i with _ | _ | _ <;> decide +kernel
  · rcases i with _ | _ | _ <;> decide +kernel
  · rw [field_header _ _ _ _ _ rfl (by decide)]; decide +kernel
  · rw [field_header _ _ _ _ _ rfl (by decide)]; decide +kernel
  · rw [g.1, g.2.2.2.1]; decide +kernel
  · rw [g.2.1, g.2.2.1]
  · rw [field_header _ _ _ _ _ rfl (by decide)]; decide +kernel

/-- What an echo of such a block must fit: the Sent List entry of sequence 5 with rewrite count 1. -/
def sentOf (kind : SentKind) (rewrites : Nat) : SentEntry :=
  ⟨kind, 5, rewrites, false, foldCheck (headerOf 2 rewrites 5 100), checkOf 0, 0⟩

/-- The block that `appending`'s lane 0 has sent comes back: each judgement of an echo has its state. -/
theorem witness_EchoesJudged :
    let h := headerOf 2 1 5 100
    let l := fun (e : SentEntry) => ({ appending.lane .l0 with sent := [e] } : Lane)
    let s := fun (l : Lane) => laned (put appending (fun p => p.setBuffer 7 { Buffer.blank with copies := ⟨some .sent, some .queued⟩ }))
      (fun _ => withReturn h l)
    let block := blockOf h 0
    let pair := (field block 16 4, field block 6 1)
    let fits := fun (e : SentEntry) => pair = (e.seq, e.rewrites) ∧ foldCheck (block.take 32) = e.headerCheck
      ∧ foldCheck (slice block 32 32720) = e.payloadCheck
      ∧ slice block 32752 16 = leBytes 4 e.payloadCheck ++ leBytes 4 e.headerCheck ++ [0x4B, 0x44, 0x53, 0x45] ++ zeros 4
    (∀ l, (s l).completesReturn (lastWrite h 0) .l0 block ∧ (s l).lane .l0 = withReturn h l)
    ∧ (∀ e, (l e).sent = [e]) ∧ (appending.lane .l0).outstanding = none
    ∧ pair ∈ [(5, 1)] ∧ pair ∉ ([] : List (Nat × Nat))
    ∧ fits (sentOf .label 1) ∧ fits (sentOf (.data 7) 1) ∧ fits (sentOf .eov 1) ∧ ¬ fits (sentOf (.data 7) 0) ∧ ¬ fits (sentOf (.data 7) 2)
    ∧ (appending.lane .l0).volume.map (·.label) = some (lab 1) ∧ appending.span.length < 32
    ∧ (appending.lane .l0).run.stopAfter = false ∧ 7 < appending.pool.buffers.length ∧ appending.pool.waiters = []
    ∧ (appending.buffer 7).copies.get LaneId.l0.other = none
    ∧ ((s (l (sentOf (.data 7) 1))).buffer 7).copies.get LaneId.l0.other = some .queued
    ∧ (appending.lane .l0).run.chosen = some ⟨lab 1, none, true⟩ ∧ (appending.lane LaneId.l0.other).run.chosen = none
    ∧ (appending.lane .l0).state = .append ∧ (appending.lane .l0).serving = none ∧ (appending.lane .l0).pending = none
    ∧ ¬ 3 ≤ (sentOf (.data 7) 0).rewrites + 1
    ∧ (appending.lane .l0).volume.map (·.rewrites.length) = some 0 ∧ 3 ≤ (sentOf (.data 7) 2).rewrites + 1 := by
  intro h l s block pair fits
  have g := block_good h 0 0 rfl
  have p : pair = (5, 1) := by
    show (field (blockOf h 0) 16 4, field (blockOf h 0) 6 1) = _
    rw [field_header _ _ _ _ _ rfl (by decide), field_header _ _ _ _ _ rfl (by decide)]; decide +kernel
  have f : ∀ k, fits (sentOf k 1) := fun k => ⟨p, g.1, g.2.1, block_trailer h 0 0 rfl⟩
  refine ⟨fun l => ⟨returning_completes _ h 0 l rfl rfl (by decide +kernel) (by decide +kernel) 0 (by decide +kernel),
      lane_modLane_same _ _ _⟩, fun e => rfl, by decide +kernel, by rw [p]; decide, by rw [p]; decide, f _, f _, f _,
    fun c => ?_, fun c => ?_, ?_⟩
  · exact absurd (p.symm.trans c.1) (by decide)
  · exact absurd (p.symm.trans c.1) (by decide)
  · decide +kernel

/-! ## Witnesses: the Directive Unit and the settings -/

theorem witness_DirectiveWritesTaken :
    (calm.pins.resetLow = false ∧ calm.unit.slot = .ready ∧ (0x7E : Byte).toNat ∉ directiveTable ∧ (0x7E : Byte) ≠ 0
      ∧ (0x7E : Byte) ≠ 0xC9 ∧ (0x10 : Byte).toNat ∈ guardedTable
      ∧ (0x02 : Byte).toNat ∈ directiveTable ∧ (0x02 : Byte).toNat ∉ guardedTable)
    ∧ (slotted calm (.pending 0x10)).unit.slot = .pending 0x10 ∧ 0x10 ≠ 0x7F ∧ (0x10 : Byte) ≠ 0xC9
    ∧ (slotted calm (.pending 0x7F)).unit.slot = .pending 0x7F := by decide +kernel

theorem witness_DirectiveWritesTaken_busy :
    let s := slotted calm (.busy 0x10 false .outcome)
    s.pins.resetLow = false ∧ s.unit.slot = .busy 0x10 false .outcome ∧ ∀ w ∈ s.bus.waiting, w.wait ≠ .cond :=
  ⟨by decide +kernel, by decide +kernel, fun _ h => absurd h (List.not_mem_nil)⟩

/-- A part whose slot entered PENDING before transaction 2 was accepted, that one a write of the Parameter Block's first beat on
the client line and transaction 1 the same write on the port. -/
def early (x : DirSlot) : State := put (slotted calm x) (fun p => { p with
  unit := { p.unit with pendingFrom := 2 }
  bus := { p.bus with waiting := [⟨1, wr 0x40 1, .line, none⟩, ⟨2, wr 0x40 1, .line, none⟩], clientLine := [(2, wr 0x40 1)]
                      port := some (.client 1 (wr 0x40 1)) } })

/-- A write made in PENDING waits as the confirm is taken, and after it; and none does. -/
theorem witness_DirectiveWritesTaken_writes :
    let p := early (.pending 0x10)
    let s := early (.busy 0x10 false .writes)
    let one := put s (fun x => { x with bus := { x.bus with waiting := [⟨1, wr 0x40 1, .line, none⟩] } })
    (p.pins.resetLow = false ∧ p.unit.slot = .pending 0x10 ∧ 0x10 ≠ 0x7F
      ∧ ∃ w ∈ p.bus.waiting, w.wait = .line ∧ p.unit.pendingFrom ≤ w.id ∧ p.rangeHit w.txn = .directive ∧ w.txn.write = true
        ∧ w.txn.enablesIn (p.offsetIn w.txn) 0x40 0x80)
    ∧ (s.pins.resetLow = false ∧ s.unit.slot = .busy 0x10 false .writes ∧ s.bus.port = some (.client 1 (wr 0x40 1))
      ∧ s.quiet = true ∧ ∃ w ∈ s.bus.waiting, w.id ≠ 1 ∧ w.wait = .line ∧ s.unit.pendingFrom ≤ w.id)
    ∧ (one.bus.port = some (.client 1 (wr 0x40 1)) ∧ one.quiet = true ∧ (∃ w ∈ one.bus.waiting, w.id = 1)
      ∧ ∀ w ∈ one.bus.waiting, w.id = 1) := by
  refine ⟨⟨by decide +kernel, by decide +kernel, by decide +kernel, ⟨2, wr 0x40 1, .line, none⟩, by decide +kernel,
    by decide +kernel, by decide +kernel, by decide +kernel, by decide +kernel, 0x40, by decide +kernel⟩,
    by decide +kernel, by decide +kernel⟩

/-- R179 and R37: the confirm leaves the read unmade while the write made in PENDING waits, and the answer to that write makes it. -/
theorem test_pending_writes_before_read :
    let s := early (.pending 0x10)
    let own := fun (p : Part) => p.ownIssued.any (fun a => a.kind == .parameter)
    let asked := ((s.freePort.okay 1 []).takeDirective 0xC9).grant
    asked.unit.slot = .busy 0x10 false .writes ∧ own asked = false ∧ asked.bus.port = some (.client 2 (wr 0x40 1))
    ∧ (asked.passedAnswer true []).unit.slot = .busy 0x10 false .parameter ∧ own (asked.passedAnswer true []) = true := by
  decide +kernel

theorem witness_OutcomeAnsweredReadies :
    let a := writeBurst (.outcome false) 0x80 (zeros 16)
    let s := slotted (bused calm [] (some (.own a false))) (.busy 0x10 false .outcome)
    s.pins.resetLow = false ∧ s.bus.port = some (.own a false) ∧ a.kind = .outcome false
    ∧ s.unit.slot = .busy 0x10 false (if false then .second else .outcome) ∧ ∀ w ∈ s.bus.waiting, w.wait ≠ .cond := ⟨by decide +kernel, by decide +kernel, by decide +kernel, by decide +kernel, fun _ h => absurd h (List.not_mem_nil)⟩

/-- The first of two Outcome Word writes is on the port. -/
theorem witness_OutcomeAnsweredReadies_first :
    let a := writeBurst (.outcome false) 0x80 (zeros 16)
    let s := slotted (bused pooled [] (some (.own a false))) (.busy 0x10 true .second)
    s.pins.resetLow = false ∧ s.bus.port = some (.own a false) ∧ a.kind = .outcome false
    ∧ s.unit.slot = .busy 0x10 true .second ∧ ∀ w ∈ s.bus.waiting, w.wait ≠ .cond :=
  ⟨by decide +kernel, by decide +kernel, by decide +kernel, by decide +kernel, fun _ h => absurd h (List.not_mem_nil)⟩

/-- The second one is on the port. -/
theorem witness_OutcomeAnsweredReadies_second :
    let a := writeBurst (.outcome true) 0x80 (zeros 16)
    let s := slotted (bused calm [] (some (.own a false))) (.busy 0x10 true .second)
    s.pins.resetLow = false ∧ s.bus.port = some (.own a false) ∧ a.kind = .outcome true
    ∧ s.unit.slot = .busy 0x10 true (if true then .second else .outcome) ∧ ∀ w ∈ s.bus.waiting, w.wait ≠ .cond :=
  ⟨by decide +kernel, by decide +kernel, by decide +kernel, by decide +kernel, fun _ h => absurd h (List.not_mem_nil)⟩

theorem witness_BlockJudgedAsCommand :
    readParameters 0x03 (1 :: zeros 63) = some (.setAttn 1) := by decide +kernel

theorem witness_ParameterReadCarriesOut :
    let a := readBurst .parameter 0x40 8
    let s := slotted (bused calm [] (some (.own a false))) (.busy 0x02 false .parameter)
    s.pins.resetLow = false ∧ s.bus.port = some (.own a false) ∧ a.kind = .parameter
    ∧ s.unit.slot = .busy 0x02 false .parameter ∧ (zeros 64).length = 64 := by decide +kernel

/-- Two writes held for the read, of which one began to be held at time 3; and no write at all. -/
theorem witness_ParameterReadCarriesOut_held :
    let a := readBurst .parameter 0x40 8
    let s := fun (ws : List Waiting) => slotted (bused calm ws (some (.own a false))) (.busy 0x02 false .parameter)
    ∀ ws ∈ [[⟨1, wr 0x40 1, .param, some 0⟩, ⟨2, wr 0x78 1, .param, some 3⟩], []],
      (s ws).bus.port = some (.own a false) ∧ (∀ w ∈ (s ws).bus.waiting, w.wait = .param) ∧ (s ws).quiet = true := by
  decide +kernel

theorem witness_AbsentOperandIsParameter :
    let s := put calm (fun p => { p with pins := { p.pins with lnc := false } })
    (s.laneArg 1 = none ∧ calm.laneArg 2 = none ∧ s.takes 0x20 ∧ s.takes 0x30 ∧ s.takes 0x31 ∧ s.takes 0x32 ∧ s.takes 0x40
      ∧ s.takes 0x41 ∧ s.takes 0x42 ∧ s.takes 0x43 ∧ s.takes 0x60 ∧ s.takes 0x61 ∧ s.takes 0x62 ∧ s.pins.lnc = false
      ∧ s.takes 0x33 ∧ s.takes 0x78)
    ∧ (8 ≤ (8 : Byte).toNat ∧ calm.takes 0x20 ∧ calm.takes 0x21 ∧ calm.takes 0x22 ∧ calm.takes 0x23 ∧ calm.takes 0x24
      ∧ calm.takes 0x60) := by decide +kernel

theorem witness_ResetPartResets :
    (slotted calm (.pending 0x7F)).takes 0x7F ∧ (slotted calm (.pending 0x7F)).changer.out = none := by decide +kernel

theorem witness_SetWindowSetsOrRefuses :
    let s := stream .idle id
    let free := fun (r : Nat × Nat) => overlaps 0x300000 0x1000 r.1 r.2 = false
    (s.takes 0x01 ∧ (11 : Byte).toNat = (11 : Fin 12).val ∧ s.pins.lnc = true ∧ s.roleActive 11 = false)
    ∧ (allowedSize 3 0x1000 = true ∧ 0x300000 % 0x1000 = 0
      ∧ ∀ r ∈ s.areaRange :: s.windowRanges (some 3) ++ s.poolRange ++ s.restoreAreas, free r)
    ∧ 12 ≤ (12 : Byte).toNat ∧ allowedSize 3 0x1001 = false ∧ s.roleActive 0 = true ∧ s.roleActive 3 = false
    ∧ (∃ r ∈ s.areaRange :: s.windowRanges (some 3) ++ s.poolRange ++ s.restoreAreas, overlaps 0x100000 0x1000 r.1 r.2 = true) := by decide +kernel

theorem witness_SetTimingClamps :
    calm.takes 0x02 ∧ (slotted calm (.pending 0x02)).takes 0x02 := by decide +kernel

theorem witness_AttnModeAndPulse :
    let s := put calm (fun p => { p with now := 1, unit := { p.unit with pulseMode := true, attn := .pulse 0 } })
    calm.takes 0x03 ∧ (1 : Byte).toNat ≤ 1 ∧ 1 < (2 : Byte).toNat
    ∧ s.pins.resetLow = false ∧ s.unit.pulseMode = true ∧ s.unit.attn = .pulse 0 ∧ 0 + 1 ≤ s.now := by decide +kernel

theorem witness_PoolSet :
    calm.takes 0x10 ∧ (0xFFE00000 : BitVec 32).toNat % 32768 = 0 ∧ (64 : Byte).toNat = 64
    ∧ (0xFFE00000 : BitVec 32).toNat + 32768 * (64 : Byte).toNat = 2 ^ 32 ∧ (∀ i, (calm.stream i).state = .closed)
    ∧ (∀ k, (calm.lane k).state ≠ .labelling ∧ (calm.lane k).state ≠ .append ∧ (calm.lane k).state ≠ .closing)
    ∧ (∀ x ∈ pooled.pool.buffers, x.state = .free)
    ∧ (∀ r ∈ calm.areaRange :: calm.windowRanges none ++ calm.restoreAreas,
        overlaps 0xFFE00000 (32768 * 64) r.1 r.2 = false) := by
  refine ⟨?_, ?_, ?_, ?_, ?_, ?_, ?_, ?_⟩ <;> first | decide +kernel | (intro k; cases k <;> decide +kernel)

/-- SET POOL refused: a range past the top of memory, an open stream, a range that shares the directive area. -/
theorem witness_PoolRefused :
    let good := fun (base : BitVec 32) (count : Byte) => ¬ (base.toNat % 32768 ≠ 0
       ∨ (count.toNat ≠ 0 ∧ (count.toNat < 8 ∨ 64 < count.toNat ∨ 2 ^ 32 < base.toNat + 32768 * count.toNat)))
    calm.takes 0x10 ∧ (0xFFFC8000 : BitVec 32).toNat % 32768 = 0 ∧ 2 ^ 32 + 32768 = (0xFFFC8000 : BitVec 32).toNat + 32768 * (8 : Byte).toNat
    ∧ (7 : Byte).toNat < 8 ∧ 64 < (65 : Byte).toNat ∧ good 0x100000 8 ∧ good 0 0
    ∧ (stream .idle id).takes 0x10 ∧ ((stream .idle id).stream 0).state ≠ .closed
    ∧ good 0 8 ∧ ¬ ((∃ i, (calm.stream i).state ≠ .closed)
       ∨ (∃ k, (calm.lane k).state = .labelling ∨ (calm.lane k).state = .append ∨ (calm.lane k).state = .closing)
       ∨ ∃ x ∈ calm.pool.buffers, x.state ≠ .free)
    ∧ ∃ r ∈ calm.areaRange :: calm.windowRanges none ++ calm.restoreAreas, overlaps 0 (32768 * 8) r.1 r.2 = true := by
  refine ⟨?_, ?_, ?_, ?_, ?_, ?_, ?_, ?_, ?_, ?_, ?_, ?_⟩
  case refine_11 =>
    rintro (⟨i, h⟩ | ⟨k, h⟩ | ⟨x, h, _⟩)
    · exact h ((by decide +kernel : ∀ i, (calm.stream i).state = .closed) i)
    · cases k <;> revert h <;> decide +kernel
    · revert h; rw [(by decide +kernel : calm.pool.buffers = [])]; exact List.not_mem_nil
  all_goals decide +kernel

theorem witness_TwinSet :
    let s := put calm (fun p => { p with pins := { p.pins with lnc := false } })
    calm.takes 0x33 ∧ s.takes 0x33 ∧ (1 : Byte).toNat ≤ 1 ∧ 1 < (2 : Byte).toNat ∧ calm.pins.lnc = true ∧ s.pins.lnc = false
    ∧ (∀ k, (calm.lane k).run.isOpen = false ∧ ((calm.lane k).state = .empty ∨ (calm.lane k).state = .idle))
    ∧ (∀ i, (calm.stream i).state = .closed) ∧ appending.takes 0x33 ∧ (appending.lane .l0).run.isOpen = true
    ∧ (stream .idle id).takes 0x33 ∧ ((stream .idle id).stream 0).state ≠ .closed ∧ calm.takes 0x7F := by
  refine ⟨?_, ?_, ?_, ?_, ?_, ?_, ?_, ?_, ?_, ?_, ?_, ?_, ?_⟩ <;> first | decide +kernel | (intro k; cases k <;> decide +kernel)

theorem witness_HoldListDirectives :
    let holds := fun (n : Nat) => put calm (fun p => { p with library := { p.library with holds := (List.range n).map lab } })
    (labelBytes (lab 31)).all printable = true ∧ (holds 31).takes 0x52 ∧ lab 31 ∉ (holds 31).library.holds
    ∧ (holds 31).library.holds.length + 1 = 32 ∧ (holds 32).library.holds.length = 32 ∧ lab 32 ∉ (holds 32).library.holds
    ∧ lab 31 ∈ (holds 32).library.holds ∧ (holds 32).takes 0x52 ∧ (holds 32).takes 0x53 := by decide +kernel

/-! ## Witnesses: streams, runs, lanes -/

theorem witness_OpenStreamAndRecord :
    let s := stream .idle (fun x => { x with nextRecord := .num (2 ^ 32 - 1) })
    let e := stream .idle (fun x => { x with nextRecord := .exhausted })
    pooled.present .l1 = true ∧ pooled.takes 0x20 ∧ pooled.twin.on = false ∧ (pooled.stream 0).state = .closed
    ∧ pooled.intakeSize 0 ≠ 0 ∧ pooled.pool.geometry ≠ none ∧ (pooled.intakeSize 1 = 0)
    ∧ s.takes 0x21 ∧ (BitVec.ofNat 64 (2 ^ 36 - 1)).toNat = 2 ^ 36 - 1 ∧ (s.stream 0).state = .idle
    ∧ (s.stream 0).nextRecord = .num (2 ^ 32 - 1) ∧ (pooled.stream 0).state ≠ .idle
    ∧ (e.stream 0).nextRecord = .exhausted ∧ 2 ^ 36 - 1 < (BitVec.ofNat 64 (2 ^ 36)).toNat := by decide +kernel

theorem witness_StreamDirectives :
    let r := stream .record (fun x => { x with intake := [1] })
    let f := stream .record (fun x => { x with seg := .filling seg })
    let i := stream .idle id
    r.bus.waiting = [] ∧ r.takes 0x22 ∧ (r.stream 0).state = .record ∧ (r.stream 0).intake ≠ [] ∧ (i.stream 0).state ≠ .record
    ∧ f.takes 0x23 ∧ (f.stream 0).state ≠ .closed ∧ (f.stream 0).state ≠ .faulted ∧ (f.stream 0).seg = .filling seg
    ∧ (f.stream 0).lane = some .l0 ∧ (pooled.stream 0).state = .closed
    ∧ i.takes 0x24 ∧ (i.stream 0).state = .idle ∧ (r.stream 0).state ≠ .idle ∧ (r.stream 0).state ≠ .faulted := by decide +kernel

theorem witness_AppendOpensRun :
    let s := laned (cart pooled 25 1 .scratch) (fun l => { l with state := .idle })
    s.takes 0x30 ∧ s.present .l0 = true ∧ (65535 : BitVec 16) ≠ 0 ∧ s.twin.on = false ∧ s.pool.geometry ≠ none
    ∧ (s.lane .l0).run.isOpen = false ∧ ((s.lane .l0).state = .empty ∨ (s.lane .l0).state = .idle)
    ∧ (s.lane LaneId.l0.other).run.chosen = none ∧ (s.loc (bay .l0)).occ = .occupied ∧ (s.loc (bay .l0)).state = some .scratch
    ∧ (s.loc (bay .l0)).label = some (lab 1) ∧ validLabel (lab 1) = true ∧ lab 1 ∉ s.library.holds
    ∧ (∀ p, p ≠ bay .l0 → s.isCandidate (s.loc p) = false) := by decide +kernel

/-- Twin mode on, lane 1 its primary, a SCRATCH cartridge in each bay. -/
theorem witness_AppendOpensRun_twin :
    let s := put (cart (cart pooled 25 1 .scratch) 26 2 .scratch) (fun p => { p with twin := ⟨true, .l1⟩ })
    let k := LaneId.l1
    s.takes 0x30 ∧ (∀ j, s.present j = true) ∧ (1 : BitVec 16) ≠ 0 ∧ s.twin.on = true ∧ k = s.twin.primary ∧ s.pool.geometry ≠ none
    ∧ lab 2 ≠ lab 1
    ∧ (∀ j, (s.lane j).run.isOpen = false ∧ (s.lane j).volume = none ∧ ((s.lane j).state = .empty ∨ (s.lane j).state = .idle)
       ∧ (s.loc (bay j)).occ = .occupied ∧ (s.loc (bay j)).state = some .scratch
       ∧ (s.loc (bay j)).label = some (if j = k then lab 2 else lab 1))
    ∧ validLabel (lab 2) = true ∧ validLabel (lab 1) = true ∧ lab 2 ∉ s.library.holds ∧ lab 1 ∉ s.library.holds
    ∧ (∀ p, (∀ j, p ≠ bay j) → s.isCandidate (s.loc p) = false) := by
  intro s k
  refine ⟨?_, ?_, ?_, ?_, ?_, ?_, ?_, ?_, ?_, ?_, ?_, ?_, fun p h =>
    (by decide +kernel : ∀ p : Loc, p ≠ 25 → p ≠ 26 → s.isCandidate (s.loc p) = false) p (h .l0) (h .l1)⟩ <;>
    first | decide +kernel | (intro k; cases k <;> decide +kernel)

theorem witness_AppendRefused :
    pooled.takes 0x30 ∧ pooled.present .l1 = true ∧ 24 < (25 : Byte).toNat ∧ calm.pool.geometry = none
    ∧ ((pooled.lane .l0).run.isOpen = false ∧ (pooled.lane .l0).state = .empty ∧ (24 : Byte) ≠ 0
      ∧ ∀ p, (pooled.loc p).occ = .occupied → pooled.rankOf .l0 p ≠ some (24 : Byte).toNat) := by decide +kernel

theorem witness_CloseVolumeAndEndRun :
    let c := laned appending (fun l => { l with state := .closing, run := { l.run with due := 1 } })
    appending.present .l0 = true ∧ appending.twin.on = false ∧ (appending.lane .l0).state = .append
    ∧ (appending.asm .l0).openBlock = none ∧ appending.twinRun = false ∧ appending.takes 0x31 ∧ appending.takes 0x32
    ∧ (∀ i, (appending.stream i).lane = some .l0 → (appending.stream i).state = .closed ∨ (appending.stream i).state = .idle)
    ∧ LaneId.l0 ∉ appending.pool.waiters ∧ (c.lane .l0).state = .closing ∧ c.takes 0x31 ∧ c.quiet = true
    ∧ (calm.lane .l0).state ≠ .append ∧ (calm.lane .l0).state ≠ .closing := by decide +kernel

/-- Both lanes of a twin run in APPEND with blocks to send, and no stream open. -/
theorem witness_CloseVolumeAndEndRun_twin :
    let s := twinned 12288 1
    (∀ j, s.present j = true) ∧ s.twin.on = true ∧ s.twinRun = true
    ∧ (∀ j, (s.lane j).state = .append ∧ (s.asm j).openBlock = none ∧ (s.lane j).calm = true) ∧ s.takes 0x31 ∧ s.takes 0x32
    ∧ LaneId.l0 = s.twin.primary ∧ LaneId.l1 ≠ s.twin.primary
    ∧ (∀ i, (s.stream i).state = .closed) ∧ s.pool.waiters = [] := by
  refine ⟨?_, ?_, ?_, ?_, ?_, ?_, ?_, ?_, ?_, ?_⟩ <;> first | decide +kernel | (intro k; cases k <;> decide +kernel)

/-- CLOSE VOLUME with nothing left to send, one position below the capacity. -/
theorem witness_CloseVolumeAndEndRun_eov :
    let v : Volume := { label := lab 1, set := 7, number := 1, twin := false, nextSeq := 5, positions := 12287, verified := 4, rewrites := [] }
    let e : SpanEntry := { entry with label := lab 1, mirror := .opened }
    let s := put (laned appending (fun l => { l with queue := [], volume := some v })) (fun p => { p with span := [e] })
    let l := s.lane .l0
    s.present .l0 = true ∧ s.twin.on = false ∧ l.state = .append ∧ (s.asm .l0).openBlock = none ∧ s.twinRun = false ∧ s.takes 0x31
    ∧ l.queue = [] ∧ l.sent = [] ∧ l.pending = none ∧ l.owedEov = none ∧ l.restore = none ∧ l.verify = none
    ∧ l.access.loan = .none ∧ l.volume = some v ∧ v.positions + 1 = l.run.ownCapacity ∧ s.findSpan v.label = some e
    ∧ (∀ i, (s.stream i).seg = .empty) ∧ (s.lane LaneId.l0.other).calm = true := by decide +kernel

theorem witness_HoldReleaseUnload :
    let s := laned (cart calm 25 1 .full) (fun l => { l with state := .idle })
    s.present .l0 = true ∧ s.takes 0x40 ∧ s.takes 0x41 ∧ s.takes 0x43 ∧ (s.lane .l0).state = .idle ∧ (calm.lane .l0).state ≠ .idle := by decide +kernel

theorem witness_CancelLaneEmpties :
    let s := put appending (fun p => p.setStream 0 { p.stream 0 with state := .record, lane := some .l0 })
    let o := LaneId.l0.other
    s.takes 0x42 ∧ s.present .l0 = true ∧ s.pool.waiters = [] ∧ (s.lane o).calm = true ∧ (s.lane o).run.isOpen = false
    ∧ (s.lane o).run.chosen = none ∧ ((s.lane o).state = .empty ∨ (s.lane o).state = .idle) ∧ (s.lane o).restore = none
    ∧ (s.lane o).verify = none ∧ (s.lane .l0).state ≠ .fault ∧ (s.stream 0).lane = some .l0
    ∧ (s.stream 0).state ≠ .closed ∧ (s.stream 0).state ≠ .faulted := by decide +kernel

/-- A cartridge on which a LABEL was sent, or none, stands OPEN in slot 4, lane 0 in FAULT. -/
theorem witness_CancelLaneEmpties_chosen : ∀ sent : Bool,
    let s := put (elsewhere sent) (fun p => p.modLane .l1 (fun l => { l with run := Run.none }))
    let o := LaneId.l0.other
    s.takes 0x42 ∧ s.present .l0 = true ∧ s.pool.waiters = [] ∧ (s.lane o).calm = true ∧ (s.lane o).run.isOpen = false
    ∧ (s.lane o).run.chosen = none ∧ (s.lane o).state = .empty ∧ (s.lane o).restore = none ∧ (s.lane o).verify = none
    ∧ (s.lane .l0).state = .fault ∧ (s.lane .l0).run.chosen = some ⟨lab 1, some 4, sent⟩ ∧ (s.loc 3).occ = .occupied
    ∧ (∀ q, (s.loc q).label = some (lab 1) ↔ q = 3) ∧ (s.loc 3).state = some .opened
    -- CLEAR ERRORS on the same state
    ∧ s.takes 0x78 ∧ (s.lane .l0).run.isOpen = true ∧ (s.lane .l0).run.stopAfter = true ∧ (s.lane .l0).queue = []
    ∧ (s.lane .l0).restore = none ∧ (s.lane .l0).verify = none ∧ (s.lane .l0).access.loan = .none := by decide +kernel

/-- In APPEND. -/
theorem witness_CancelLaneEmpties_open :
    (appending.lane .l0).run.chosen = some ⟨lab 1, none, true⟩ ∧ (appending.lane .l0).state = .append
    ∧ (appending.loc 25).occ = .occupied ∧ (∀ q, (appending.loc q).label = some (lab 1) ↔ q = 25) := by decide +kernel

/-- CANCEL LANE leaves a cartridge OPEN on which a LABEL was sent, and returns one on which none was (R122). -/
theorem test_cancel_lane_keeps_a_labelled_cartridge :
    (match exec (.cancelLane 0) (elsewhere true) with | .next t => (t.loc 3).state | _ => none) = some .opened
    ∧ (match exec (.cancelLane 0) (elsewhere false) with | .next t => (t.loc 3).state | _ => none) = some .scratch := by decide +kernel

/-- CLEAR ERRORS does likewise (R122). -/
theorem test_clear_errors_keeps_a_labelled_cartridge :
    (match exec (.clearErrors 0) (elsewhere true) with | .next t => (t.loc 3).state | _ => none) = some .opened
    ∧ (match exec (.clearErrors 0) (elsewhere false) with | .next t => (t.loc 3).state | _ => none) = some .scratch := by decide +kernel

theorem witness_ClearErrorsClears :
    let s := laned calm (fun l => { l with state := .fault, code := .media })
    let c := changed calm (fun c => { c with state := .faulted })
    s.takes 0x78 ∧ s.present .l0 = true ∧ (s.lane .l0).state = .fault ∧ (s.lane .l0).run.isOpen = false
    ∧ (s.lane .l1).state ≠ .fault ∧ c.takes 0x78 ∧ c.changer.state = .faulted ∧ 3 < (4 : Byte).toNat := by decide +kernel

/-! ## Witnesses: magazine and changer -/

theorem witness_InventoryAndMove :
    let full := changed calm (fun c => { c with queue := List.replicate 4 ⟨0, .scanM, false, false⟩ })
    let three := changed calm (fun c => { c with queue := List.replicate 3 ⟨0, .scanM, false, false⟩ })
    let bad := changed calm (fun c => { c with state := .faulted })
    calm.takes 0x50 ∧ 3 < (4 : Byte).toNat ∧ (3 : Byte) ≠ 0 ∧ (3 : Byte).toNat = 3 ∧ bad.changer.state = .faulted
    ∧ full.changer.state ≠ .faulted ∧ 4 ≤ (full.changer.queue.filter (·.job.isDirective)).length
    ∧ (three.changer.queue.filter (·.job.isDirective)).length + 1 = 4 ∧ calm.takes 0x51
    ∧ (0 : Byte) = 0 ∧ 27 < (28 : Byte).toNat := by decide +kernel

/-- Each condition of MOVE's PARAMETER and of its STATE, slots of both magazines at their edges, and a move that meets none of
them, the queue one short of full and full. -/
theorem witness_InventoryAndMove_move :
    let parameter := fun (s : State) (a b : Loc) =>
      a = b ∨ ((a = 26 ∨ b = 26) ∧ s.pins.lnc = false) ∨ (s.loc a).occ = .empty ∨ (s.loc b).occ = .occupied
    let shut := fun (s : State) (p : Loc) =>
      (p.val < 12 ∧ s.library.openL = true) ∨ (12 ≤ p.val ∧ p.val < 24 ∧ s.library.openR = true)
    let busy := fun (s : State) (p : Loc) => ∃ k, p = bay k ∧ (s.lane k).state ≠ .empty ∧ (s.lane k).state ≠ .idle
    let state := fun (s : State) (a b : Loc) => s.changer.state = .faulted ∨ shut s a ∨ shut s b ∨ busy s a ∨ busy s b
      ∨ ((s.loc a).occ = .occupied ∧ (s.loc a).state = some .opened)
    let one := put calm (fun p => { p with pins := { p.pins with lnc := false } })
    let bad := changed calm (fun c => { c with state := .faulted })
    let openL := put calm (fun p => { p with library := { p.library with openL := true } })
    let openR := put calm (fun p => { p with library := { p.library with openR := true } })
    let works := laned calm (fun l => { l with state := .loading })
    let held := cart calm 3 2 .opened
    let queued := fun (n : Nat) => changed calm (fun c => { c with queue := List.replicate n ⟨0, .scanM, false, false⟩ })
    (calm.takes 0x51 ∧ parameter calm 0 0 ∧ one.takes 0x51 ∧ parameter one 0 26 ∧ parameter one 26 0 ∧ parameter (bare calm 3) 3 0
      ∧ parameter held 0 3)
    ∧ ((∀ s ∈ [bad, openL, openR, works, held, calm, queued 3, queued 4], s.takes 0x51 ∧ ¬ parameter s 3 25 ∧ ¬ parameter s 12 23)
      ∧ state bad 3 25 ∧ shut openL 0 ∧ shut openL 11 ∧ shut openR 12 ∧ shut openR 23 ∧ busy works 25
      ∧ ((held.loc 3).occ = .occupied ∧ (held.loc 3).state = some .opened))
    ∧ ¬ state (queued 3) 3 25 ∧ ¬ state (queued 4) 3 25 := by
  refine ⟨by decide +kernel, ⟨by decide +kernel, .inl (by decide +kernel), by decide +kernel, by decide +kernel, by decide +kernel,
    by decide +kernel, ⟨.l0, by decide +kernel⟩, by decide +kernel⟩, ?_, ?_⟩ <;>
  · rintro (h | h | h | ⟨k, h⟩ | ⟨k, h⟩ | h) <;> revert h <;> first | decide +kernel | (cases k <;> decide +kernel)

theorem witness_Retire :
    let held := put spanned (fun p => { p with library := { p.library with holds := [lab 2] } })
    spanned.takes 0x54 ∧ validLabel ⟨0, 0, 0, 0, 0, 0, 0, 0⟩ = false ∧ validLabel (lab 2) = true ∧ spanned.findLabel (lab 5) = none
    ∧ validLabel (lab 5) = true ∧ spanned.findLabel (lab 2) = some 3 ∧ held.findLabel (lab 2) = some 3
    ∧ lab 2 ∈ held.library.holds ∧ lab 2 ∉ spanned.library.holds ∧ (spanned.loc 3).state ≠ some .opened
    ∧ spanned.findSpan (lab 2) = some entry ∧ entry.mirror ≠ .opened ∧ (∀ k, 3 ≠ bay k) := by
  refine ⟨?_, ?_, ?_, ?_, ?_, ?_, ?_, ?_, ?_, ?_, ?_, ?_, ?_⟩ <;> first | decide +kernel | (intro k; cases k <;> decide +kernel)

theorem witness_Forget :
    let held := put spanned (fun p => { p with library := { p.library with holds := [lab 2] } })
    spanned.takes 0x72 ∧ spanned.findSpan (lab 5) = none ∧ held.findSpan (lab 2) = some entry ∧ lab 2 ∈ held.library.holds
    ∧ spanned.findSpan (lab 2) = some entry ∧ lab 2 ∉ spanned.library.holds ∧ entry.mirror ≠ .opened
    ∧ (∀ k, (spanned.lane k).restore = none ∧ (spanned.lane k).verify = none) := by
  refine ⟨?_, ?_, ?_, ?_, ?_, ?_, ?_, ?_⟩ <;> first | decide +kernel | (intro k; cases k <;> decide +kernel)

theorem witness_LoadCommandStarts :
    let s := changed spanned (fun c => { c with state := .ready, queue := [⟨6, .load .l0 3 (lab 2), false, false⟩] })
    let o := changed spanned (fun c => { c with out := some ⟨.move 3 25, some 6, none, false⟩ })
    s.pins.resetLow = false ∧ s.changer.state = .ready ∧ s.changer.out = none
    ∧ s.changer.queue = [⟨6, .load .l0 3 (lab 2), false, false⟩] ∧ (s.loc 3).occ = .occupied ∧ (s.loc 3).label = some (lab 2)
    ∧ (s.loc (bay .l0)).occ = .empty ∧ o.changer.out = some ⟨.move 3 25, some 6, none, false⟩ := by decide +kernel

theorem witness_MoveAndScanAnswers :
    let m := changed spanned (fun c => { c with out := some ⟨.move 3 4, some 6, none, false⟩, queue := [⟨6, .move 3 4, true, false⟩] })
    let c := changed spanned (fun c => { c with out := some ⟨.scan 24, some 6, none, false⟩, queue := [⟨6, .scanM, true, false⟩] })
    m.pins.resetLow = false ∧ (3 : Loc) ≠ 4 ∧ m.changer.out = some ⟨.move 3 4, some 6, none, false⟩
    ∧ m.changer.queue = [⟨6, .move 3 4, true, false⟩] ∧ (m.loc 3).occ = .occupied
    ∧ c.changer.out = some ⟨.scan 24, some 6, none, false⟩ ∧ c.changer.queue = [⟨6, .scanM, true, false⟩]
    ∧ (∀ q, (c.loc q).label ≠ some (lab 5)) ∧ c.findSpan (lab 5) = none ∧ c.isChosen (lab 5) = false := by decide +kernel

/-- A lane's load is out, and an answer fails. -/
theorem witness_MoveAndScanAnswers_load :
    let s := laned (changed spanned (fun c => { c with
      out := some ⟨.move 3 25, some 6, none, false⟩, queue := [⟨6, .load .l0 3 (lab 2), true, false⟩] })) (fun l => { l with state := .loading })
    s.pins.resetLow = false ∧ s.changer.out = some ⟨.move 3 (bay .l0), some 6, none, false⟩
    ∧ s.changer.queue = [⟨6, .load .l0 3 (lab 2), true, false⟩] ∧ (s.lane .l0).state ≠ .fault
    ∧ (s.lane LaneId.l0.other).calm = true ∧ 1 ≤ (1 : Byte).toNat ∧ (4 : Byte).toNat ≤ 4 := by decide +kernel

theorem witness_QueryAndTimeouts :
    let q := changed (bare calm 24) (fun c => { c with out := some ⟨.query, none, none, false⟩ })
    let r := put calm (fun p => { p with now := 10000000 })
    let m := changed spanned (fun c => { c with
      out := some ⟨.move 3 4, some 6, some ⟨0, 0⟩, true⟩, queue := [⟨6, .move 3 4, true, true⟩] })
    q.pins.resetLow = false ∧ q.changer.out = some ⟨.query, none, none, false⟩ ∧ (0 : Byte).getLsbD 0 = q.library.openL
    ∧ (0 : Byte).getLsbD 1 = q.library.openR ∧ (q.loc 24).occ = (if (0 : Byte).getLsbD 2 then .occupied else .empty)
    ∧ r.pins.resetLow = false ∧ r.changer.state = .offline ∧ r.changer.out = none ∧ r.changer.querySent + 10000000 = r.now
    ∧ m.pins.resetLow = false ∧ m.changer.out = some ⟨.move 3 4, some 6, some ⟨0, 0⟩, true⟩
    ∧ m.changer.queue = [⟨6, .move 3 4, true, true⟩] ∧ 0 + 0 ≤ m.now ∧ (3 : Loc) ≠ 4 := by decide +kernel

theorem witness_NoticesAct :
    calm.pins.resetLow = false ∧ calm.changer.queue = [] ∧ calm.changer.out = none ∧ calm.quiet = true ∧ calm.changer.state ≠ .faulted := by decide +kernel

theorem witness_FramesDiscardedAndStray :
    let t := changed calm (fun c => { c with receiver := .taking [0x22] calm.now })
    calm.pins.resetLow = false ∧ (0x55 : Byte).toNat ∉ [0xA1, 0xA2, 0xA3, 0x40, 0x41, 0x42, 0x43, 0x44]
    ∧ calm.changer.receiver = .hunting ∧ (0xA6 : Byte) ≠ 0xA7 ∧ 24 < (25 : Byte).toNat ∧ t.pins.resetLow = false
    ∧ t.changer.receiver = .taking [0x22] t.now ∧ t.now ≤ t.now + 20000 ∧ t.now < t.now + 20174 := by decide +kernel

/-- A frame whose last byte ended 20174 µs ago, and one that waits for its check. -/
theorem witness_FramesDiscardedAndStray_late :
    let t : State := { changed calm (fun c => { c with receiver := .taking [0x22] 5 }) with now := 20179 }
    let u := changed calm (fun c => { c with receiver := .taking [0x42, 0] calm.now })
    t.pins.resetLow = false ∧ t.changer.receiver = .taking [0x22] 5 ∧ 5 + 20000 < t.now ∧ 5 + 20174 ≤ t.now
    ∧ u.pins.resetLow = false ∧ u.changer.receiver = .taking (0x42 :: byteOf ([] : List Byte).length :: []) u.now
    ∧ ([0x42, 0] ++ [0xBF]).foldl (· + ·) 0 ≠ (0 : Byte) := by decide +kernel

theorem witness_ReceiverTakesFrame :
    calm.changer.receiver = .hunting ∧ (0xA6 : Byte) ≠ 0xA7 ∧ 24 < (25 : Byte).toNat ∧ (zeros 24).length ≤ 24
    ∧ ((0x42 : Byte) :: byteOf 24 :: (zeros 24 ++ [0xA6])).foldl (· + ·) 0 = (0 : Byte)
    ∧ ((0x42 : Byte) :: byteOf 24 :: (zeros 24 ++ [0xA7])).foldl (· + ·) 0 ≠ (0 : Byte)
    ∧ 26 < ((0x42 : Byte) :: byteOf 24 :: (zeros 24 ++ [0xA6])).length ∧ 20000 < 20001 ∧ 20000 ≤ 20000 := by decide +kernel

/-- R140: a byte that starts 20 ms after the last one ended goes on with the frame; one that starts later drops it. -/
theorem test_gap_of_20_ms :
    let u := changed calm (fun c => { c with receiver := .taking [0x42] 0 })
    (Part.receive { u.toPart with now := 20173 } 0).changer.receiver = .taking [0x42, 0] 20173
    ∧ (Part.receive { u.toPart with now := 20174 } 0).changer.discards = 1
    ∧ (Part.frameGap { u.toPart with now := 20000 }).changer.discards = 0
    ∧ (Part.frameGap { u.toPart with now := 20001 }).changer.discards = 1 := by decide +kernel

/-- R142: the notice MAIL SLOT LOADED arrives as A7 42 00 BE. -/
theorem test_mail_slot_loaded_frame : ([0xA7, 0x42, 0x00, 0xBE] : List Byte).foldl Part.receive calm.toPart
    = calm.takeFrame 0x42 [] := by decide +kernel

/-! ## Witnesses: reading back, the Span Table, encodings, invariants -/

theorem witness_ReadJobsStart_restore :
    let s := spanned
    s.takes 0x60 ∧ s.present .l0 = true ∧ (7 : BitVec 16) ≠ 0 ∧ (4 : BitVec 32).toNat ≤ (4 : BitVec 32).toNat
    ∧ badRegion 0xFFFFFFF8 8 = false ∧ s.destOverlaps 0xFFFFFFF8 8 = false ∧ (s.lane .l0).restore = none
    ∧ (s.lane .l0).verify = none ∧ (s.lane .l0).run.isOpen = false ∧ (s.lane .l0).state = .empty
    ∧ s.restoreCandidates 7 2 4 4 = [(entry, ⟨2, ⟨0, 0, true⟩, ⟨2 ^ 32 - 1, 3, true⟩, 1, 97, some (10, 2)⟩)]
    ∧ entry.twin = false ∧ s.findLabel entry.label = some 3 ∧ (∀ j, (3 : Loc) ≠ bay j) ∧ (s.loc (bay .l0)).occ = .empty
    ∧ s.changer.state ≠ .faulted := by
  refine ⟨?_, ?_, ?_, ?_, ?_, ?_, ?_, ?_, ?_, ?_, ?_, ?_, ?_, ?_, ?_, ?_⟩ <;>
    first | decide +kernel | (intro k; cases k <;> decide +kernel)

theorem witness_ReadJobsStart_verify :
    let s := spanned
    s.takes 0x62 ∧ s.present .l0 = true ∧ (labelBytes (lab 2)).all printable = true ∧ s.findSpan (lab 2) = some entry
    ∧ entry.mirror ≠ .opened ∧ (s.lane .l0).restore = none ∧ (s.lane .l0).verify = none ∧ (s.lane .l0).run.isOpen = false
    ∧ (s.lane .l0).state = .empty ∧ s.findLabel (lab 2) = some 3 ∧ (∀ j, (3 : Loc) ≠ bay j) ∧ (s.loc (bay .l0)).occ = .empty
    ∧ s.changer.state ≠ .faulted := by
  refine ⟨?_, ?_, ?_, ?_, ?_, ?_, ?_, ?_, ?_, ?_, ?_, ?_, ?_⟩ <;>
    first | decide +kernel | (intro k; cases k <;> decide +kernel)

theorem witness_RestoreContinues :
    let j := (waiting.lane .l0).restore
    waiting.takes 0x61 ∧ waiting.present .l0 = true ∧ badRegion 4 8 = true ∧ badRegion 0xFFFFFFF8 8 = false
    ∧ (calm.lane .l0).restore = none ∧ (j.map (·.phase)) = some .waitingDest ∧ waiting.destOverlaps 0xFFFFFFF8 8 = false := by decide +kernel

theorem witness_WalkStepsOverOtherStream :
    let s := laned waiting (fun l => { l with restore := l.restore.map (fun j => { j with phase := .reading }) })
    let h := segHead ((slice (zeros 32768) 32 32720).drop 0)
    s.pins.resetLow = false ∧ ((s.lane .l0).restore.map (fun j => (j.phase, j.cursor, j.effLast, j.stream))) = some (.reading, 9, 9, 2)
    ∧ (s.lane .l0).buffer = some (zeros 32768) ∧ (s.lane .l0).access.walk = some ⟨0, 21, none, none⟩ ∧ 21 ≤ 32720
    ∧ h.packed ≤ 4096 ∧ 0 + h.size + 1 = 21 ∧ h.stream ≠ 2 :=
  ⟨by decide +kernel, by decide +kernel, rfl, by decide +kernel, by decide +kernel, by decide +kernel, by decide +kernel,
    by decide +kernel⟩

/-- A block with one segment at offset 4: record 5 of stream 2, a literal run of 3 bytes and a copy of 5. -/
def recordBlock : List Byte :=
  zeros 32 ++ (zeros 4 ++ ([2, 3, 6, 0, 5, 0, 0, 0] ++ zeros 12 ++ [2, 1, 2, 3, 0xA0, 1] ++ leBytes 4 0x00540013 ++ zeros 32702))

/-- A whole record in one segment at the cursor, its raw bytes filling the region to its end. -/
theorem witness_WalkTakesRecord :
    let s := laned waiting (fun l => { l with
      buffer := some recordBlock, unpack := Unpack.empty true, access := { l.access with walk := some ⟨4, 34, none, none⟩ }
      restore := l.restore.map (fun j => { j with phase := .reading, cursor := 5, destSize := 88 }) })
    let j := (s.lane .l0).restore
    let bs := (slice recordBlock 32 32720).drop 4
    let h := segHead bs
    let ts : List Token := [.lit [1, 2, 3], .copy 5 2]
    s.pins.resetLow = false ∧ j.map (fun j => (j.phase, j.cursor, j.effLast, j.gap, j.stream)) = some (.reading, 5, 9, false, 2)
    ∧ (s.lane .l0).buffer = some recordBlock ∧ (s.lane .l0).access.walk = some ⟨4, 34, none, none⟩ ∧ 34 ≤ 32720
    ∧ s.slot .l0 2 = .empty ∧ h.packed ≤ 4096 ∧ 4 + h.size = 34 ∧ h.stream = 2 ∧ h.record = 5 ∧ h.first = true ∧ h.last = true
    ∧ h.index = 0 ∧ h.raw = 0 ∧ slice bs 20 h.packed = ts.flatMap Token.packed ∧ 2 ≤ (expandAll [] [.lit [1, 2, 3]]).length
    ∧ j.map (fun j => j.pointer + 16 + (expandAll [] ts).length) = j.map (fun j => j.destBase + j.destSize)
    ∧ foldCheck (expandAll [] ts) = field bs (20 + h.packed) 4 := by
  refine ⟨?_, ?_, rfl, ?_⟩ <;> decide +kernel

theorem witness_SpanTransfersStart :
    ported.bus.port ≠ none ∧ ported.takes 0x70 ∧ ported.takes 0x71 ∧ (0xFFFFFFC0 : BitVec 32).toNat % 64 = 0
    ∧ (0xFFFFFFC0 : BitVec 32).toNat + 64 + 512 * ported.span.length = 2 ^ 32
    ∧ (∀ r ∈ ported.areaRange :: ported.windowRanges none ++ ported.poolRange,
        overlaps 0xFFFFFFC0 (64 + 512 * ported.span.length) r.1 r.2 = false)
    ∧ ported.quiet = true
    ∧ (∀ k, (ported.lane k).run.isOpen = false ∧ (ported.lane k).restore = none ∧ (ported.lane k).verify = none)
    ∧ (8 : BitVec 32).toNat % 64 ≠ 0 := by
  refine ⟨?_, ?_, ?_, ?_, ?_, ?_, ?_, ?_, ?_⟩ <;> first | decide +kernel | (intro k; cases k <;> decide +kernel)

/-- The last write of an EXPORT SPAN, and the last read of an IMPORT SPAN of one entry, are on the port. -/
theorem witness_SpanTransfersEnd :
    let a : OwnAccess := writeBurst (.spanWrite true) 0x50000 (zeros 64)
    let x := slotted (bused calm [] (some (.own a false))) (.busy 0x70 false (.exporting 0))
    let b : OwnAccess := readBurst (.spanRead true) 0xFFFFFD80 8
    let old : List Byte := [0x4B, 0x44, 0x53, 0x54, 1] ++ zeros 59 ++ (entryBytes entry).take 448
    let data := (entryBytes entry).drop 448
    let i := slotted (bused spanned [] (some (.own b false))) (.busy 0x71 false (.importing 0xFFFFFDC0 old))
    (x.pins.resetLow = false ∧ x.bus.port = some (.own a false) ∧ a.kind = .spanWrite true
      ∧ x.unit.slot = .busy 0x70 false (.exporting 0))
    ∧ (i.pins.resetLow = false ∧ i.bus.port = some (.own b false) ∧ b.kind = .spanRead true
      ∧ i.unit.slot = .busy 0x71 false (.importing 0xFFFFFDC0 old) ∧ data.length = 8 * b.beats
      ∧ (old ++ data).take 4 = [0x4B, 0x44, 0x53, 0x54] ∧ (byteAt (old ++ data) 4).toNat = 1 ∧ (old ++ data).length = 64 + 512 * 1
      ∧ 0xFFFFFDC0 + 64 + 512 * 1 = 2 ^ 32 ∧ readEntry (slice (old ++ data) 64 512) = some entry
      ∧ ([entry].map (·.label)).Nodup ∧ i.library.holds = [])
    ∧ (zeros 64).take 4 ≠ [0x4B, 0x44, 0x53, 0x54] ∧ 32 < (33 : Byte).toNat := by decide +kernel

theorem witness_TokensReadBack :
    (0x3F : Byte).toNat < 0x40 ∧ (0x3F : Byte).toNat + 1 ≤ (zeros 64).length ∧ 0x40 ≤ (0x40 : Byte).toNat
    ∧ (0x7F : Byte).toNat < 0x80 ∧ 0x80 ≤ (0x80 : Byte).toNat
    ∧ 1 ≤ (zeros 64).length ∧ (zeros 64).length ≤ 64 ∧ 3 ≤ 66 ∧ 66 ≤ 66 ∧ 3 ≤ 10 ∧ 10 ≤ 10 ∧ 1 ≤ 4096 ∧ 4096 ≤ 4096 := by decide +kernel

/-- R2's words at the edges. -/
theorem test_tokens_at_their_limits :
    (Token.copy 10 4096).packed = [0xFF, 0xFF] ∧ (Token.copy 3 1).packed = [0x80, 0x00] ∧ (Token.rep 66 5).packed = [0x7F, 5]
    ∧ parseToken [0xFF, 0xFF, 1] = .token (.copy 10 4096) [1] ∧ parseToken [0x80, 0x00] = .token (.copy 3 1) []
    ∧ parseToken [0x7F, 5] = .token (.rep 66 5) [] := by decide +kernel

theorem witness_SpanEntriesReadBack :
    entry.valid = true ∧ entry.set < 2 ^ 16 ∧ entry.number < 2 ^ 16 ∧ entry.verified < 2 ^ 32 ∧ entry.absentFrom < 2 ^ 32
    ∧ entry.mirror = .full ∧ entry.runs.length ≤ 8 ∧ (∀ r ∈ entry.runs, r.1 < 2 ^ 32 ∧ r.2 < 2 ^ 32)
    ∧ (∀ r ∈ entry.ranges, r.first.record < 2 ^ 32 ∧ r.first.index < 2 ^ 32 ∧ r.last.record < 2 ^ 32 ∧ r.last.index < 2 ^ 32
      ∧ ∀ c, r.continuation = some c → c.1 < 2 ^ 32 ∧ c.2 < 2 ^ 32) := by
  refine ⟨?_, ?_, ?_, ?_, ?_, ?_, ?_, ?_, ?_⟩
  all_goals decide +kernel

theorem witness_StepKeepsSettings : calm.Settings ∧ ∃ t, step calm = .next t := by
  refine ⟨⟨?_, ?_, ?_, ?_, fun c h => ?_, ?_, ?_, ?_⟩, ?_⟩
  all_goals first | decide +kernel | skip
  · exact absurd (h.symm.trans (by decide +kernel : calm.unit.slot = .ready)) (by simp)
  · exact ⟨_, rfl⟩

theorem witness_StepKeepsLabels : calm.Labels ∧ ∃ t, step calm = .next t := by
  refine ⟨⟨fun p q l h _ => ?_, ?_⟩, _, rfl⟩
  · exact absurd (h.symm.trans ((by decide +kernel : ∀ p, (calm.loc p).label = none) p)) (by simp)
  · decide +kernel

theorem witness_StepKeepsFaultedEmpty :
    (changed calm (fun c => { c with state := .faulted })).FaultedEmpty
      ∧ ∃ t, step (changed calm (fun c => { c with state := .faulted })) = .next t :=
  ⟨fun _ => by decide +kernel, _, rfl⟩

/-- Directives that the slot does not take, a confirm of another one, and the Parameter Block read of another one. -/
theorem witness_PathSettingsChangeOnlyByDirective :
    let b := slotted calm (.busy 0x10 false .outcome)
    let p := slotted calm (.pending 0x10)
    let r := slotted (bused calm [] (some (.own (readBurst .parameter 0x40 8) false))) (.busy 0x03 false .parameter)
    (∃ t, exec .frameGap calm = .next t)
    ∧ (¬ b.takes 0x01 ∧ ¬ b.takes 0x02 ∧ ¬ b.takes 0x7F ∧ (∃ t, exec (.setTiming 0 0) b = .next t) ∧ ∃ t, exec .resetPart b = .next t)
    ∧ (p.unit.slot ≠ .pending 0x7F ∧ ∃ t, exec .confirm p = .next t)
    ∧ ((∀ code lost, r.unit.slot = .busy code lost .parameter → code ≠ 0x01 ∧ code ≠ 0x02)
      ∧ ∃ t, exec (.parameterReadAnswered true (zeros 64)) r = .next t) :=
  ⟨⟨_, rfl⟩, ⟨by decide +kernel, by decide +kernel, by decide +kernel, ⟨_, rfl⟩, _, rfl⟩, ⟨by decide +kernel, _, rfl⟩,
    fun _ _ h => by cases h; decide, _, rfl⟩

end Sys2Proof.Tests
end

section
/-! SUPPORT. Tokens: what a token adds to a record's bytes, and the packed stream read back (R2, R3). Settles O54. -/

namespace Sys2Proof.Machine

/-! ## Tokens written and read back (R2) -/

/-- A token that R2 has a control byte for. -/
def Token.Fits : Token → Prop
  | .lit bs => 1 ≤ bs.length ∧ bs.length ≤ 64
  | .rep n _ => 3 ≤ n ∧ n ≤ 66
  | .copy l d => 3 ≤ l ∧ l ≤ 10 ∧ 1 ≤ d ∧ d ≤ 4096

theorem parseToken_lit (c : Byte) (rest : List Byte) (hc : c.toNat < 0x40) (hr : c.toNat + 1 ≤ rest.length) :
    parseToken (c :: rest) = .token (.lit (rest.take (c.toNat + 1))) (rest.drop (c.toNat + 1)) := by
  have whole : ¬ rest.length < c.toNat + 1 := by omega
  simp only [parseToken, if_pos hc, if_neg whole]

theorem parseToken_rep (c v : Byte) (rest : List Byte) (hl : 0x40 ≤ c.toNat) (hu : c.toNat < 0x80) :
    parseToken (c :: v :: rest) = .token (.rep (c.toNat - 0x40 + 3) v) rest := by
  have notLit : ¬ c.toNat < 0x40 := by omega
  simp only [parseToken, if_neg notLit, if_pos hu]

theorem parseToken_copy (c d : Byte) (rest : List Byte) (hl : 0x80 ≤ c.toNat) :
    parseToken (c :: d :: rest)
      = .token (.copy ((c.toNat - 0x80) / 16 + 3) (c.toNat % 16 * 256 + d.toNat + 1)) rest := by
  have notLit : ¬ c.toNat < 0x40 := by omega
  have notRep : ¬ c.toNat < 0x80 := by omega
  simp only [parseToken, if_neg notLit, if_neg notRep]

/-- A token that is written is read back as itself, whatever follows it (R2). -/
theorem parseToken_packed (t : Token) (rest : List Byte) (h : t.Fits) : parseToken (t.packed ++ rest) = .token t rest := by
  cases t with
  | lit bs =>
    obtain ⟨hl, hu⟩ := h
    have control : (byteOf (bs.length - 1)).toNat + 1 = bs.length := by rw [byteOf_toNat]; omega
    have read := parseToken_lit (byteOf (bs.length - 1)) (bs ++ rest) (by omega)
      (by rw [control, List.length_append]; omega)
    rw [control] at read
    simpa [Token.packed] using read
  | rep n v =>
    obtain ⟨hl, hu⟩ := h
    have control : (byteOf (0x40 + n - 3)).toNat = 0x40 + n - 3 := by rw [byteOf_toNat]; omega
    have count : 0x40 + n - 3 - 0x40 + 3 = n := by omega
    have read := parseToken_rep (byteOf (0x40 + n - 3)) v rest (by omega) (by omega)
    rwa [control, count] at read
  | copy l d =>
    obtain ⟨hl, hu, hd, hd'⟩ := h
    have control : (byteOf (0x80 + (l - 3) * 16 + (d - 1) / 256)).toNat = 0x80 + (l - 3) * 16 + (d - 1) / 256 := by
      rw [byteOf_toNat]; omega
    have read := parseToken_copy (byteOf (0x80 + (l - 3) * 16 + (d - 1) / 256)) (byteOf ((d - 1) % 256)) rest (by omega)
    have length : (0x80 + (l - 3) * 16 + (d - 1) / 256 - 0x80) / 16 + 3 = l := by omega
    have distance : (0x80 + (l - 3) * 16 + (d - 1) / 256) % 16 * 256 + (d - 1) % 256 % 256 + 1 = d := by omega
    rwa [control, byteOf_toNat, length, distance] at read

@[simp] theorem packedLength_nil : packedLength [] = 0 := rfl
@[simp] theorem packedLength_cons (t : Token) (ts : List Token) : packedLength (t :: ts) = t.size + packedLength ts := rfl
@[simp] theorem rawLength_nil : rawLength [] = 0 := rfl
@[simp] theorem rawLength_cons (t : Token) (ts : List Token) : rawLength (t :: ts) = t.raw + rawLength ts := rfl
@[simp] theorem rawLength_append (ts us : List Token) : rawLength (ts ++ us) = rawLength ts + rawLength us := by
  simp [rawLength]
theorem packedLength_singleton (t : Token) : packedLength [t] = t.packed.length := Nat.add_zero _

/-- Settles O54: each clause is a reading rule of R2, a token's packed bytes by definition, or `parseToken_packed`. -/
theorem tokensReadBack : Obligations.TokensReadBack := by
  refine ⟨fun c rest => ⟨parseToken_lit c rest, ?_, ?_⟩, ?_, ?_, ?_, ?_⟩
  · rintro hl hu v rest' rfl
    exact parseToken_rep c v rest' hl hu
  · rintro hl d rest' rfl
    exact parseToken_copy c d rest' hl
  · exact fun bs _ _ => ⟨rfl, packedLength_singleton _⟩
  · exact fun n v _ _ => ⟨rfl, packedLength_singleton _⟩
  · exact fun l d _ _ _ _ => ⟨rfl, packedLength_singleton _⟩
  · intro t rest h
    refine parseToken_packed t rest ?_
    cases t <;> exact h

/-! ## What tokens add to a record's bytes (R3) -/

/-- The `n` bytes that a copy from `d` bytes back adds behind the raw bytes `past`, one at a time. -/
def copied (d : Nat) : Nat → List Byte → List Byte
  | 0, _ => []
  | n + 1, past => byteAt past (past.length - d) :: copied d n (past ++ [byteAt past (past.length - d)])

/-- The bytes a token adds behind the raw bytes `past` (R3). -/
def Token.gives (past : List Byte) : Token → List Byte
  | .lit bs => bs
  | .rep n v => List.replicate n v
  | .copy l d => copied d l past

theorem expand_copy_succ (past : List Byte) (n d : Nat) :
    (Token.copy (n + 1) d).expand past = (Token.copy n d).expand (past ++ [byteAt past (past.length - d)]) := by
  simp only [Token.expand, List.range_succ_eq_map, List.foldl_cons, List.foldl_map]

theorem expand_eq_append (past : List Byte) (t : Token) : t.expand past = past ++ t.gives past := by
  cases t with
  | lit bs => rfl
  | rep n v => rfl
  | copy l d =>
    induction l generalizing past with
    | zero => exact (List.append_nil past).symm
    | succ n ih => rw [expand_copy_succ, ih, List.append_assoc]; rfl

@[simp] theorem gives_length (past : List Byte) (t : Token) : (t.gives past).length = t.raw := by
  cases t with
  | lit bs => rfl
  | rep n v => exact List.length_replicate
  | copy l d =>
    induction l generalizing past with
    | zero => rfl
    | succ n ih => exact congrArg Nat.succ (ih _)

@[simp] theorem expandAll_nil (past : List Byte) : expandAll past [] = past := rfl
@[simp] theorem expandAll_cons (past : List Byte) (t : Token) (ts : List Token) :
    expandAll past (t :: ts) = expandAll (t.expand past) ts := rfl
theorem expandAll_append (past : List Byte) (ts us : List Token) :
    expandAll past (ts ++ us) = expandAll (expandAll past ts) us := List.foldl_append

theorem expandAll_length (past : List Byte) (ts : List Token) :
    (expandAll past ts).length = past.length + rawLength ts := by
  induction ts generalizing past with
  | nil => rfl
  | cons t ts ih => rw [expandAll_cons, ih, expand_eq_append, List.length_append, gives_length, rawLength_cons]; omega

end Sys2Proof.Machine
end

section
/-! SUPPORT. The head table and its insertions (R4, R5), and a byte taken into the lookahead (R7, R49). Settles O13. -/

namespace Sys2Proof.Machine

/-! ## The head table (R4) -/

theorem headGet_headSet (h h' j : Nat) (t : List (Nat × Nat)) :
    headGet h (headSet h' j t) = if h' = h then some j else headGet h t := by
  induction t with
  | nil => by_cases e : h' = h <;> simp [headSet, headGet, e]
  | cons x t ih =>
    obtain ⟨a, b⟩ := x
    have later (t' : List (Nat × Nat)) : headGet h ((a, b) :: t') = if a = h then some b else headGet h t' := by
      by_cases e : a = h <;> simp [headGet, e]
    have front (t' : List (Nat × Nat)) : headGet h ((h', j) :: t') = if h' = h then some j else headGet h t' := by
      by_cases e : h' = h <;> simp [headGet, e]
    unfold headSet
    split
    · exact front _
    · split
      · next e =>
        subst e
        rw [front, later]
        split <;> rfl
      · next ne =>
        rw [later, later, ih]
        split
        · next e => rw [if_neg fun e' => ne (e'.trans e.symm)]
        · rfl

theorem mem_headSet (h j : Nat) (t : List (Nat × Nat)) (e : Nat × Nat) (m : e ∈ headSet h j t) : e = (h, j) ∨ e ∈ t := by
  induction t with
  | nil => exact .inl (List.mem_singleton.mp m)
  | cons x t ih =>
    unfold headSet at m
    split at m
    · exact List.mem_cons.mp m
    · split at m
      · exact (List.mem_cons.mp m).imp_right (List.mem_cons_of_mem _)
      · rcases List.mem_cons.mp m with rfl | m
        · exact .inr List.mem_cons_self
        · exact (ih m).imp_right (List.mem_cons_of_mem _)

/-- The entry that the table holds for a hash stands in it. -/
theorem mem_of_headGet (h j : Nat) (t : List (Nat × Nat)) (e : headGet h t = some j) : (h, j) ∈ t := by
  obtain ⟨x, hx, rfl⟩ := Option.map_eq_some_iff.mp e
  have key : x.1 = h := by simpa using List.find?_some hx
  exact key ▸ List.mem_of_find?_eq_some hx

/-! ## Insertions (R4, R5) -/

/-- Insertions change nothing but the head table. -/
theorem foldl_insert_eq (k : Packing) (js : List Nat) :
    js.foldl Packing.insert k = { k with head := (js.foldl Packing.insert k).head } := by
  induction js generalizing k with
  | nil => rfl
  | cons j js ih =>
    rw [List.foldl_cons, ih]
    rfl

/-- Insertions made one after the other leave the last position of each hash (R4). -/
theorem foldl_insert_inserted (k : Packing) (js : List Nat) : k.inserted (js.foldl Packing.insert k) js := by
  intro h
  induction js generalizing k with
  | nil => simp
  | cons j js ih =>
    have hash : (k.insert j).hashAt = k.hashAt := rfl
    have set : headGet h (k.insert j).head = if k.hashAt j = h then some j else headGet h k.head := headGet_headSet ..
    rw [List.foldl_cons, ih, hash, set]
    by_cases e : k.hashAt j = h
    · cases kept : js.filter (fun i => k.hashAt i == h) <;> simp [e, kept, List.getLast?_cons]
    · simp [e]

theorem mem_foldl_insert (k : Packing) (js : List Nat) (e : Nat × Nat) (m : e ∈ (js.foldl Packing.insert k).head) :
    e ∈ k.head ∨ e.2 ∈ js := by
  induction js generalizing k with
  | nil => exact .inl m
  | cons j js ih =>
    rcases ih _ m with m | m
    · rcases mem_headSet _ _ _ _ m with rfl | m
      · exact .inr List.mem_cons_self
      · exact .inl m
    · exact .inr (List.mem_cons_of_mem _ m)

/-! ## A byte taken into the lookahead (R7) -/

/-- A byte taken changes the lookahead, the count of known bytes, the fold, the waiting insertions and the head table (R7). -/
theorem takeByte_eq (k : Packing) (x : Byte) :
    k.takeByte x = { k with
      look := k.look ++ [x], known := k.known + 1, fold := k.fold.add x, head := (k.takeByte x).head
      waitIns := k.waitIns.filter (fun j => ¬ j + 2 < k.known + 1) } :=
  foldl_insert_eq ..

/-- A byte taken makes the waiting insertions whose third byte it is, in order (R5). -/
theorem takeByte_inserted (k : Packing) (x : Byte) :
    ({ k with look := k.look ++ [x] } : Packing).inserted (k.takeByte x)
      (k.waitIns.filter (fun j => j + 2 < k.known + 1)) :=
  foldl_insert_inserted _ _

/-- No insertion whose third byte is known waits after a byte was taken, so the record's end drops all that wait (R5). -/
theorem setEnded_takeByte (k : Packing) (x : Byte) :
    (k.takeByte x).setEnded = { k.takeByte x with ended := true, waitIns := [] } := by
  have none : (k.takeByte x).waitIns.filter (fun j => j + 2 < (k.takeByte x).known) = [] := by
    rw [takeByte_eq]
    simp [List.filter_filter]
  rw [Packing.setEnded, none]

/-- The packing state after the encoder took `b`, with `rest` left in the intake buffer (R7, R49). -/
def Stream.packTaking (x : Stream) (b : Byte) (rest : List Byte) : Packing :=
  if x.state = .ending ∧ rest = [] then (x.pack.takeByte b).setEnded else x.pack.takeByte b

/-- With no transaction unanswered there is no held write to judge again. -/
theorem rejudge_of_no_waiting (s : Part) (i : Fin 8) (h : s.bus.waiting = []) : s.rejudge i = s := by
  simp [Part.rejudge, Part.heldIntake, h, rejudgeFrom]

theorem encoderTakeByte_takes (s : Part) (i : Fin 8) (b : Byte) (rest : List Byte) (hw : s.bus.waiting = [])
    (hi : (s.stream i).intake = b :: rest) (he : (s.stream i).encoding = true) (hl : (s.stream i).pack.look.length < 66) :
    s.encoderTakeByte i =
      s.setStream i { s.stream i with intake := rest, pack := (s.stream i).packTaking b rest } := by
  have acts : (s.stream i).encoding ∧ (s.stream i).pack.look.length < 66 := ⟨he, hl⟩
  simp only [Part.encoderTakeByte, hi, if_pos acts]
  exact rejudge_of_no_waiting _ i hw

theorem encoding_of_record (x : Stream) (hs : x.state = .record ∨ x.state = .ending) (hw : x.waiting = []) :
    x.encoding = true := by
  rcases hs with e | e <;> simp [Stream.encoding, e, hw]

theorem noConditionRead_of_no_waiting (s : Part) (h : s.bus.waiting = []) : s.noConditionRead := by
  simp [Part.noConditionRead, h]

/-- Settles O13: the packing state is `Stream.packTaking`, read off by `takeByte_eq` and `setEnded_takeByte`. -/
theorem encoderTakesByte : Obligations.EncoderTakesByte := by
  intro s i b rest hr hbus hi hs hw hl
  have effect := encoderTakeByte_takes s.toPart i b rest hbus hi (encoding_of_record _ hs hw) hl
  obtain ⟨u, hu, hp, hb, -, -, hlat⟩ := event_blocks s (fun p => p.encoderTakeByte i) hr
  rw [effect] at hb hlat
  have head := takeByte_inserted (s.stream i).pack b
  refine ⟨u, _, hu, hp, hb, hlat (noConditionRead_of_no_waiting _ hbus), ?_⟩
  unfold Stream.packTaking
  split
  · next last =>
    rw [setEnded_takeByte]
    rw [takeByte_eq] at head ⊢
    exact ⟨rfl, rfl, rfl, rfl, rfl, rfl, by simp [last], head, rfl⟩
  · next more =>
    have going : ((s.stream i).state == .ending && rest.isEmpty) = false := by simpa using more
    rw [takeByte_eq] at head ⊢
    exact ⟨rfl, rfl, rfl, rfl, rfl, rfl, by simp [going], head, rfl⟩

end Sys2Proof.Machine
end

section
/-! SUPPORT. The encoder's decision: what it passes, what it emits, and what its tokens stand for (R3, R8 to R10). Settles O14. -/

namespace Sys2Proof.Machine

/-! ## Positions passed (R5, R6) -/

theorem foldl_insert_waitIns (k : Packing) (js ws : List Nat) :
    js.foldl Packing.insert { k with waitIns := ws } = { js.foldl Packing.insert k with waitIns := ws } := by
  induction js generalizing k with
  | nil => rfl
  | cons j js ih => exact ih (k.insert j)

/-- Of the positions passed, those whose third byte is known are inserted in order; the others wait, or are dropped when the
record has ended (R5). -/
theorem insertFrom_eq (k : Packing) (j n : Nat) :
    k.insertFrom j n = { k with
      head := (((List.range' j n).filter (fun i => i + 2 < k.known)).foldl Packing.insert k).head
      waitIns := if k.ended = true then k.waitIns
        else k.waitIns ++ (List.range' j n).filter (fun i => ¬ i + 2 < k.known) } := by
  induction n generalizing k j with
  | zero => simp [Packing.insertFrom]
  | succ n ih =>
    rw [Packing.insertFrom, Packing.insertPassed, List.range'_succ]
    by_cases due : j + 2 < k.known
    · rw [if_pos due, ih, List.filter_cons_of_pos (by simpa using due), List.filter_cons_of_neg (by simpa using due)]
      rfl
    · have late : k.known ≤ j + 2 := Nat.le_of_not_lt due
      rw [if_neg due]
      by_cases closed : k.ended = true
      · rw [if_pos closed, ih]
        simp [due, closed]
      · rw [if_neg closed, ih]
        simp only [foldl_insert_waitIns]
        simp [due, late, closed]

/-- The packing state after a decision that passed `n` bytes and left the pending literal run `l`. -/
def Packing.passing (k : Packing) (n : Nat) (l : List Byte) : Packing :=
  { (k.insertFrom k.pos n).advance n with lit := l }

theorem passing_eq (k : Packing) (n : Nat) (l : List Byte) :
    k.passing n l = { k with
      pos := k.pos + n, look := k.look.drop n, lit := l
      hist := (k.hist ++ k.look.take n).drop ((k.hist ++ k.look.take n).length - 4096)
      head := (((List.range' k.pos n).filter (fun i => i + 2 < k.known)).foldl Packing.insert k).head
      waitIns := if k.ended = true then k.waitIns
        else k.waitIns ++ (List.range' k.pos n).filter (fun i => ¬ i + 2 < k.known) } := by
  simp only [Packing.passing, insertFrom_eq, Packing.advance]

/-- The last 4096 of some bytes, with bytes behind them, hold the last 4096 of all. -/
theorem drop_history (past new : List Byte) (n : Nat) :
    (past.drop (past.length - n) ++ new).drop ((past.drop (past.length - n) ++ new).length - n)
      = (past ++ new).drop ((past ++ new).length - n) := by
  rw [← List.drop_append_of_le_length (Nat.sub_le _ _), List.drop_drop, List.length_drop, List.length_append]
  congr 1
  omega

/-- A packing state that passes `n` bytes agrees with the record that has them, whatever run of its last bytes stays pending. -/
theorem passing_agrees (k : Packing) (past : List Byte) (n : Nat) (l : List Byte) (h : k.Agrees past)
    (hn : n ≤ k.look.length) (hl : l <:+ past ++ k.look.take n) : (k.passing n l).Agrees (past ++ k.look.take n) := by
  obtain ⟨pos, known, hist, -, head, waits⟩ := h
  rw [passing_eq]
  constructor
  case pos => simp only [List.length_append, List.length_take, pos, Nat.min_eq_left hn]
  case known => simp only [List.length_drop, known]; omega
  case hist => simp only [hist, drop_history]
  case lit => exact hl
  case head =>
    intro e m
    rcases mem_foldl_insert _ _ _ m with m | m
    · exact Nat.lt_add_right n (head e m)
    · exact (List.mem_range'_1.mp (List.mem_filter.mp m).1).2
  case waits =>
    intro j m
    dsimp only at m ⊢
    split at m
    · exact Nat.lt_add_right n (waits j m)
    · rcases List.mem_append.mp m with m | m
      · exact Nat.lt_add_right n (waits j m)
      · exact (List.mem_range'_1.mp (List.mem_filter.mp m).1).2

/-! ## What the repeat run and the match stand for (R8, R9) -/

theorem take_repeatCount (look : List Byte) :
    look.take (repeatCount look) = List.replicate (repeatCount look) (byteAt look 0) := by
  cases look with
  | nil => rfl
  | cons x xs =>
    have run : (x :: xs).takeWhile (· == x) <+: x :: xs := List.takeWhile_prefix _
    have bound : repeatCount (x :: xs) ≤ ((x :: xs).takeWhile (· == x)).length := Nat.min_le_right _ _
    refine List.eq_replicate_iff.mpr ⟨?_, fun b m => ?_⟩
    · rw [List.length_take, Nat.min_eq_left (bound.trans run.length_le)]
    · have inRun : b ∈ (x :: xs).takeWhile (· == x) := by
        rw [List.prefix_iff_eq_take.mp run]
        exact List.take_subset_take_left _ bound m
      exact eq_of_beq (List.mem_takeWhile_imp (p := (· == x)) inRun)

theorem repeatCount_le (look : List Byte) : repeatCount look ≤ look.length := by
  cases look with
  | nil => exact Nat.le_refl 0
  | cons x xs => exact (Nat.min_le_right _ _).trans (List.takeWhile_prefix _).length_le

theorem matchCount_le (n : Nat) (as bs : List Byte) : matchCount n as bs ≤ n := by
  induction n generalizing as bs with
  | zero => exact Nat.le_refl 0
  | succ n ih =>
    rcases as with _ | ⟨a, as⟩
    · exact Nat.zero_le _
    rcases bs with _ | ⟨b, bs⟩
    · exact Nat.zero_le _
    rw [matchCount]
    split
    · exact Nat.succ_le_succ (ih _ _)
    · exact Nat.zero_le _

/-- A copy from `d` bytes back as long as the bytes ahead match gives the bytes ahead, its own bytes among those it looks
back at (R3, R9). -/
theorem copied_matchCount (d n : Nat) (past look : List Byte) (hd : 1 ≤ d) (hp : d ≤ past.length) :
    copied d (matchCount n ((past ++ look).drop (past.length - d)) look) past
      = look.take (matchCount n ((past ++ look).drop (past.length - d)) look) := by
  induction n generalizing past look with
  | zero => rfl
  | succ n ih =>
    cases look with
    | nil => simp [matchCount, copied]
    | cons b bs =>
      have back : past.length - d < past.length := by omega
      have first : (past ++ b :: bs).drop (past.length - d)
          = byteAt past (past.length - d) :: ((past ++ [b]) ++ bs).drop ((past ++ [b]).length - d) := by
        have next : past.length + 1 - d = past.length - d + 1 := by omega
        rw [List.drop_eq_getElem_cons (by simp; omega), List.getElem_append_left back, byteAt,
          List.getD_eq_getElem _ _ back, List.append_assoc, List.singleton_append, List.length_append, List.length_singleton, next]
      rw [first, matchCount]
      split
      · next same =>
        rw [copied, eq_of_beq same, ih (past ++ [b]) bs (by simp; omega), List.take_succ_cons]
      · rfl

/-- The candidate of R9 lies in the history, and its match count compares the bytes ahead with those from its position on. -/
theorem candidate_match (k : Packing) (past : List Byte) (q m : Nat) (h : k.Agrees past) (e : k.candidate = some (q, m)) :
    1 ≤ k.pos - q ∧ k.pos - q ≤ past.length
      ∧ m = matchCount (min 10 k.look.length) ((past ++ k.look).drop (past.length - (k.pos - q))) k.look := by
  obtain ⟨pos, -, hist, -, head, -⟩ := h
  unfold Packing.candidate at e
  split at e
  · contradiction
  · split at e
    · contradiction
    · next q' found =>
      split at e
      · next near =>
        obtain ⟨rfl, rfl⟩ : q' = q ∧ _ = m := by simpa using e
        have passed : q' < k.pos := head _ (mem_of_headGet _ _ _ found)
        have view : k.around.drop (k.hist.length - (k.pos - q')) = (past ++ k.look).drop (past.length - (k.pos - q')) := by
          rw [Packing.around, hist, ← List.drop_append_of_le_length (Nat.sub_le _ _), List.drop_drop, List.length_drop]
          congr 1
          omega
        rw [view]
        exact ⟨by omega, by omega, rfl⟩
      · contradiction

/-! ## The decision (R8 to R10) -/

/-- All that a decision can do: a repeat run, a copy of the valid candidate's match, or the literal step. -/
theorem decision_cases (k : Packing) :
    (3 ≤ repeatCount k.look ∧ k.decision = (k.passing (repeatCount k.look) [],
        flushLiteral k.lit ++ [.rep (repeatCount k.look) (byteAt k.look 0)]))
    ∨ (∃ q m, k.candidate = some (q, m) ∧ 3 ≤ m
        ∧ k.decision = (k.passing m [], flushLiteral k.lit ++ [.copy m (k.pos - q)]))
    ∨ k.decision = k.literalStep := by
  unfold Packing.decision
  dsimp only
  split
  · next run => exact .inl ⟨run, rfl⟩
  · split
    · next q m found =>
      split
      · next long => exact .inr (.inl ⟨q, m, found, long, rfl⟩)
      · exact .inr (.inr rfl)
    · exact .inr (.inr rfl)

/-- `ts` with the literal run `l` behind them stand for the pending literal run and the next `n` bytes ahead. -/
structure Packing.Emits (k : Packing) (past : List Byte) (n : Nat) (l : List Byte) (ts : List Token) : Prop where
  passes : 1 ≤ n
  ahead : n ≤ k.look.length
  short : l.length < 64
  bytes : expandAll (past.take (past.length - k.lit.length)) ts ++ l = past ++ k.look.take n

theorem expandAll_flushLiteral (past l : List Byte) : expandAll past (flushLiteral l) = past ++ l := by
  unfold flushLiteral
  split
  · next e => rw [List.isEmpty_iff.mp e, List.append_nil, expandAll_nil]
  · rfl

/-- The bytes before a literal run that ends them, with the run behind. -/
theorem take_append_of_suffix (past l : List Byte) (h : l <:+ past) : past.take (past.length - l.length) ++ l = past := by
  obtain ⟨pre, rfl⟩ := h
  simp

/-- The pending literal run flushed, with a token behind it that gives the bytes ahead. -/
theorem emits_flush (k : Packing) (past : List Byte) (n : Nat) (t : Token) (h : k.Agrees past) (hs : 3 ≤ n)
    (ha : n ≤ k.look.length) (ht : t.gives past = k.look.take n) : k.Emits past n [] (flushLiteral k.lit ++ [t]) where
  passes := by omega
  ahead := ha
  short := by decide
  bytes := by
    rw [expandAll_append, expandAll_flushLiteral, take_append_of_suffix _ _ h.lit, expandAll_cons, expandAll_nil,
      expand_eq_append, ht, List.append_nil]

theorem literalStep_emits (k : Packing) (past : List Byte) (h : k.Agrees past) (ha : k.look ≠ []) (hl : k.lit.length < 64) :
    ∃ l ts, k.literalStep = (k.passing 1 l, ts) ∧ k.Emits past 1 l ts := by
  have ahead : 1 ≤ k.look.length := List.length_pos_iff.mpr ha
  have one : k.look.take 1 = [byteAt k.look 0] := by
    obtain ⟨x, xs, e⟩ := List.exists_cons_of_ne_nil ha
    rw [e]; rfl
  have bytes : past.take (past.length - k.lit.length) ++ (k.lit ++ [byteAt k.look 0]) = past ++ k.look.take 1 := by
    rw [← List.append_assoc, take_append_of_suffix _ _ h.lit, one]
  unfold Packing.literalStep
  dsimp only
  split
  · exact ⟨[], _, rfl, Nat.le_refl 1, ahead, by decide, by rw [List.append_nil]; exact bytes⟩
  · next pending =>
    refine ⟨_, [], rfl, Nat.le_refl 1, ahead, ?_, bytes⟩
    rw [List.length_append, List.length_singleton] at pending ⊢
    omega

/-- What a decision emits stands for the pending literal run and the bytes it passes (R3, R8 to R10). -/
theorem decision_emits (k : Packing) (past : List Byte) (h : k.Agrees past) (ha : k.look ≠ []) (hl : k.lit.length < 64) :
    ∃ n l ts, k.decision = (k.passing n l, ts) ∧ k.Emits past n l ts := by
  rcases decision_cases k with ⟨long, e⟩ | ⟨q, m, found, long, e⟩ | e
  · exact ⟨_, _, _, e, emits_flush k past _ _ h long (repeatCount_le _) (take_repeatCount _).symm⟩
  · obtain ⟨back, inside, rfl⟩ := candidate_match k past q m h found
    have ahead := (matchCount_le (min 10 k.look.length) ((past ++ k.look).drop (past.length - (k.pos - q))) k.look).trans
      (Nat.min_le_right _ _)
    exact ⟨_, _, _, e, emits_flush k past _ _ h long ahead (copied_matchCount _ _ _ _ back inside)⟩
  · obtain ⟨l, ts, e', emits⟩ := literalStep_emits k past h ha hl
    exact ⟨1, l, ts, e.trans e', emits⟩

/-- Settles O14: `decision_emits` gives the bytes and `passing_eq` the rest. -/
theorem decisionLosesNoByte : Obligations.DecisionLosesNoByte := by
  intro k past ha hl h
  obtain ⟨n, l, ts, e, passes, ahead, short, bytes⟩ := decision_emits k past h ha hl
  have raw : rawLength ts + l.length = k.lit.length + n := by
    have lengths := congrArg List.length bytes
    have pending := h.lit.length_le
    simp only [List.length_append, expandAll_length, List.length_take] at lengths
    omega
  rw [e]
  refine ⟨n, passes, ahead, ?_, ?_, bytes, passing_agrees k past n l h ahead ⟨_, bytes⟩, raw, short, ?_⟩
  all_goals rw [passing_eq]
  exact ⟨rfl, rfl, rfl, foldl_insert_inserted k _, rfl⟩

end Sys2Proof.Machine
end

section
/-! SUPPORT. A decision's tokens placed in an OPEN segment that has room (R7, R51, R52). Settles O15. -/

namespace Sys2Proof.Machine

/-- The stream with tokens behind those of its OPEN segment `g` (R51, R52). -/
def Stream.filled (x : Stream) (g : Segment) (ts : List Token) : Stream :=
  { x with seg := .filling { g with tokens := g.tokens ++ ts }, placed := x.placed + rawLength ts, waiting := [] }

theorem packedLength_append (ts us : List Token) : packedLength (ts ++ us) = packedLength ts + packedLength us := by
  simp [packedLength]

/-- A token for which an OPEN segment has room joins it (R51). -/
theorem placeItem_fits (s : Part) (i : Fin 8) (x : Stream) (g : Segment) (t : Token) (hg : x.seg = .filling g)
    (room : packedLength g.tokens + t.size ≤ 4096) :
    (s.setStream i x).placeItem i (.token t) = (s.setStream i { x with
      seg := .filling { g with tokens := g.tokens ++ [t] }, placed := x.placed + t.raw }, true) := by
  simp only [Part.placeItem, stream_setStream_same, hg, Config.segmentBytes, if_pos room, setStream_setStream]

/-- Tokens for which an OPEN segment has room all join it, and none waits (R7, R51). -/
theorem placeItems_fit (s : Part) (i : Fin 8) (x : Stream) (g : Segment) (ts : List Token) (hg : x.seg = .filling g)
    (hs : x.state ≠ .faulted) (room : packedLength g.tokens + packedLength ts ≤ 4096) :
    Part.placeItems i (ts.map Item.token) (s.setStream i x) = s.setStream i (x.filled g ts) := by
  induction ts generalizing x g with
  | nil =>
    simp [Part.placeItems, Part.modStream, Stream.filled, hg]
  | cons t ts ih =>
    rw [packedLength_cons] at room
    have rest : packedLength (g.tokens ++ [t]) + packedLength ts ≤ 4096 := by
      rw [packedLength_append, packedLength_cons, packedLength_nil]
      omega
    rw [List.map_cons, Part.placeItems, placeItem_fits s i x g t hg (by omega)]
    simp only [stream_setStream_same, if_neg hs]
    refine (ih _ { g with tokens := g.tokens ++ [t] } rfl ?_ rest).trans ?_
    · exact hs
    · simp [Stream.filled, Nat.add_assoc]

/-- A decision short of the record's end hands on its tokens and nothing behind them (R7). -/
theorem encoderDecision_places (s : Part) (i : Fin 8) (he : (s.stream i).encoding = true)
    (hl : (s.stream i).pack.look.length = 66)
    (more : ¬ ((s.stream i).pack.decision.1.ended = true ∧ (s.stream i).pack.decision.1.look = [])) :
    s.encoderDecision i = Part.placeItems i ((s.stream i).pack.decision.2.map Item.token)
      (s.setStream i { s.stream i with pack := (s.stream i).pack.decision.1 }) := by
  simp only [Part.encoderDecision, if_pos (⟨he, .inl hl⟩ : _ ∧ (_ ∨ _)), if_neg more]

/-- Settles O15: the decision's tokens are placed one by one, each with room left for those behind it. -/
theorem decisionFillsSegment : Obligations.DecisionFillsSegment := by
  intro s i g hr hs hw hg hl room more
  have running : (s.stream i).state ≠ .faulted := by rcases hs with e | e <;> simp [e]
  have effect := (encoderDecision_places s.toPart i (encoding_of_record _ hs hw) hl more).trans
    (placeItems_fit _ i _ g _ hg running room)
  obtain ⟨u, hu, hp, hb, -, -, hlat⟩ := event_blocks s (fun p => p.encoderDecision i) hr
  rw [effect] at hb hlat
  refine ⟨u, hu, hp, ?_, hlat⟩
  rw [hb, Stream.filled, ← hw]

end Sys2Proof.Machine
end

section
/-! SUPPORT. The decoder over packed tokens: it produces their bytes and ends at the packed length (R3, R16). -/

namespace Sys2Proof.Machine

/-! ## A record being decoded (R14, R16) -/

/-- A record being decoded whose bytes produced so far are `past`. -/
def Decoding.after (record next : Nat) (past : List Byte) : Decoding :=
  { record := record, nextIndex := next, produced := past.length, hist := past.reverse.take 4096, fold := Fold.start.addAll past }

theorem begin_eq_after (record : Nat) : Decoding.begin record = Decoding.after record 1 [] := rfl

theorem push_after (record next : Nat) (past : List Byte) (b : Byte) :
    (Decoding.after record next past).push b = Decoding.after record next (past ++ [b]) := by
  simp [Decoding.after, Decoding.push, Fold.addAll, List.take_take]

/-- The decoder's history gives the byte `d` bytes back in the record (R3). -/
theorem hist_after (record next d : Nat) (past : List Byte) (hd : 1 ≤ d) (hu : d ≤ 4096) (hp : d ≤ past.length) :
    byteAt (Decoding.after record next past).hist (d - 1) = byteAt past (past.length - d) := by
  have inside : d - 1 < 4096 := by omega
  have reversed : past.length - 1 - (d - 1) = past.length - d := by omega
  simp only [Decoding.after, byteAt, List.getD_eq_getElem?_getD, List.getElem?_take_of_lt inside]
  rw [List.getElem?_reverse (by omega), reversed]

/-! ## One token produced (R16) -/

theorem produce_lit (record next : Nat) (past bs : List Byte) :
    produce bs.length (.lit bs) (.after record next past) = (.after record next (past ++ bs), .lit [], bs) := by
  induction bs generalizing past with
  | nil => simp [produce]
  | cons b bs ih => simp [produce, Token.next, push_after, ih]

theorem produce_rep (record next n : Nat) (past : List Byte) (v : Byte) :
    produce n (.rep n v) (.after record next past)
      = (.after record next (past ++ List.replicate n v), .rep 0 v, List.replicate n v) := by
  induction n generalizing past with
  | zero => simp [produce]
  | succ n ih => simp [produce, Token.next, push_after, ih, List.replicate_succ]

theorem produce_copy (record next l d : Nat) (past : List Byte) (hd : 1 ≤ d) (hu : d ≤ 4096) (hp : d ≤ past.length) :
    produce l (.copy l d) (.after record next past)
      = (.after record next (past ++ copied d l past), .copy 0 d, copied d l past) := by
  induction l generalizing past with
  | zero => simp [produce, copied]
  | succ l ih =>
    have inside : d ≤ (past ++ [byteAt past (past.length - d)]).length := hp.trans (by simp)
    simp [produce, Token.next, hist_after _ _ _ _ hd hu hp, push_after, ih _ inside, copied]

/-- A token that reaches back no further than the record's start, produced whole: its bytes, and nothing of it left. -/
theorem produce_gives (record next : Nat) (past : List Byte) (t : Token) (h : t.Fits)
    (back : ∀ l d, t = .copy l d → d ≤ past.length) :
    ∃ left, left.raw = 0
      ∧ produce t.raw t (.after record next past) = (.after record next (past ++ t.gives past), left, t.gives past) := by
  cases t with
  | lit bs => exact ⟨_, rfl, produce_lit record next past bs⟩
  | rep n v => exact ⟨_, rfl, produce_rep record next n past v⟩
  | copy l d =>
    obtain ⟨-, -, hd, hu⟩ := h
    exact ⟨_, rfl, produce_copy record next l d past hd hu (back l d rfl)⟩

/-! ## A run of tokens decoded (R16) -/

/-- A token at the decoder's place, produced whole, takes two turns: read, then produced. -/
theorem decodeFrom_token (fuel room record next check : Nat) (past rest : List Byte) (last : Bool) (t : Token) (h : t.Fits)
    (back : ∀ l d, t = .copy l d → d ≤ past.length) (hr : t.raw ≤ room) (hm : past.length + t.raw ≤ Config.maxRaw) :
    decodeFrom (fuel + 2) room (.after record next past) ⟨t.packed ++ rest, none, last, check⟩
      = let r := decodeFrom fuel (room - t.raw) (.after record next (past ++ t.gives past)) ⟨rest, none, last, check⟩
        { r with out := t.gives past ++ r.out } := by
  obtain ⟨left, spent, made⟩ := produce_gives record next past t h back
  have length : (Decoding.after record next past).produced = past.length := rfl
  have reaches : t.passes (.after record next past) = true := by
    cases t with
    | copy l d => simpa [Token.passes, length, hm] using back l d rfl
    | _ => simpa [Token.passes, length] using hm
  rw [decodeFrom]
  simp only [parseToken_packed t rest h, if_pos reaches]
  rw [decodeFrom]
  simp only [Nat.min_eq_right hr, made, if_pos spent, gives_length]

/-- Tokens that fit R2's control bytes and reach back no further than the record's start are decoded to their end: the bytes
they stand for (R3, R16). -/
theorem decodeFrom_tokens (ts : List Token) (fuel room record next check : Nat) (past : List Byte) (last : Bool)
    (fits : ∀ t ∈ ts, t.Fits) (back : ∀ a l d b, ts = a ++ .copy l d :: b → d ≤ (expandAll past a).length)
    (hf : 2 * ts.length < fuel) (hr : rawLength ts ≤ room) (hm : past.length + rawLength ts ≤ Config.maxRaw) :
    ∃ out, expandAll past ts = past ++ out
      ∧ decodeFrom fuel room (.after record next past) ⟨packedBytes ts, none, last, check⟩
          = ⟨.after record next (past ++ out), out, .complete⟩ := by
  induction ts generalizing fuel room past with
  | nil =>
    obtain ⟨fuel, rfl⟩ := Nat.exists_eq_succ_of_ne_zero (Nat.ne_of_gt hf)
    exact ⟨[], by simp, by simp [packedBytes, decodeFrom, parseToken]⟩
  | cons t ts ih =>
    simp only [List.length_cons, rawLength_cons] at hf hr hm
    obtain ⟨fuel, rfl⟩ : ∃ f, fuel = f + 2 := ⟨fuel - 2, by omega⟩
    have backHere : ∀ l d, t = .copy l d → d ≤ past.length := by
      rintro l d rfl
      exact back [] l d ts rfl
    have backLater : ∀ a l d b, ts = a ++ .copy l d :: b → d ≤ (expandAll (past ++ t.gives past) a).length := by
      rintro a l d b rfl
      rw [← expand_eq_append]
      exact back (t :: a) l d b rfl
    obtain ⟨out, bytes, run⟩ := ih fuel (room - t.raw) (past ++ t.gives past) (fun u hu => fits u (List.mem_cons_of_mem _ hu))
      backLater (by omega) (by omega) (by rw [List.length_append, gives_length]; omega)
    refine ⟨t.gives past ++ out, ?_, ?_⟩
    · rw [expandAll_cons, expand_eq_append, bytes, List.append_assoc]
    · have packed : packedBytes (t :: ts) = t.packed ++ packedBytes ts := List.flatMap_cons
      rw [packed, decodeFrom_token _ _ _ _ _ _ _ _ t (fits t List.mem_cons_self) backHere (by omega) (by omega), run,
        List.append_assoc]

/-! ## Packed and raw lengths (R2) -/

theorem size_bounds (t : Token) (h : t.Fits) : 2 ≤ t.size ∧ t.raw ≤ 33 * t.size := by
  cases t with
  | lit bs =>
    have size : (Token.lit bs).size = bs.length + 1 := rfl
    have raw : (Token.lit bs).raw = bs.length := rfl
    obtain ⟨hl, hu⟩ := h
    omega
  | rep n v =>
    have size : (Token.rep n v).size = 2 := rfl
    have raw : (Token.rep n v).raw = n := rfl
    obtain ⟨hl, hu⟩ := h
    omega
  | copy l d =>
    have size : (Token.copy l d).size = 2 := rfl
    have raw : (Token.copy l d).raw = l := rfl
    obtain ⟨hl, hu, -, -⟩ := h
    omega

theorem packedBytes_length (ts : List Token) : (packedBytes ts).length = packedLength ts := List.length_flatMap

/-- A packed byte stands for at most 33 raw bytes, and a token takes at least 2 packed bytes (R2). -/
theorem packedLength_bounds (ts : List Token) (fits : ∀ t ∈ ts, t.Fits) :
    2 * ts.length ≤ packedLength ts ∧ rawLength ts ≤ 33 * packedLength ts := by
  induction ts with
  | nil => exact ⟨Nat.le_refl 0, Nat.le_refl 0⟩
  | cons t ts ih =>
    obtain ⟨count, raw⟩ := ih fun u hu => fits u (List.mem_cons_of_mem _ hu)
    obtain ⟨two, most⟩ := size_bounds t (fits t List.mem_cons_self)
    simp only [List.length_cons, packedLength_cons, rawLength_cons]
    omega

/-- A record whose one segment's packed bytes are those of `ts`, decoded from nothing (R15, R16): no such segment reaches the
greatest raw length. -/
theorem decodeRun_whole (ts : List Token) (room record check : Nat) (last : Bool) (fits : ∀ t ∈ ts, t.Fits)
    (back : ∀ a l d b, ts = a ++ .copy l d :: b → d ≤ (expandAll [] a).length) (hl : packedLength ts ≤ 4096)
    (hr : (expandAll [] ts).length ≤ room) :
    decodeRun room (.begin record) ⟨packedBytes ts, none, last, check⟩
      = ⟨.after record 1 (expandAll [] ts), expandAll [] ts, .complete⟩ := by
  obtain ⟨count, raw⟩ := packedLength_bounds ts fits
  rw [expandAll_length] at hr
  obtain ⟨out, bytes, run⟩ := decodeFrom_tokens ts (2 * (packedBytes ts).length + 2) room record 1 check [] last fits back
    (by rw [packedBytes_length]; omega) (by simpa using hr) (by simp only [List.length_nil, Config.maxRaw]; omega)
  rw [List.nil_append] at bytes run
  rw [bytes, decodeRun, begin_eq_after, run]

end Sys2Proof.Machine
end

section
/-! SUPPORT. A restore's walk: a segment stepped over, and a record that one segment holds whole (R15 to R17, R161, R163).
Settles O52. -/

namespace Sys2Proof.Machine

@[simp] theorem modLane_setLane (s : Part) (k : LaneId) (l : Lane) (f : Lane → Lane) :
    (s.setLane k l).modLane k f = s.setLane k (f l) := by
  simp [Part.modLane]
@[simp] theorem pushWrites_lane (s : Part) (kind : Bool → OwnKind) (a : Nat) (bs : List Byte) (k : LaneId) :
    (s.pushWrites kind a bs).lane k = s.lane k := rfl
/-- Own writes and a lane's record do not meet: the lane is written last. -/
@[simp] theorem pushWrites_setLane (s : Part) (kind : Bool → OwnKind) (a : Nat) (bs : List Byte) (k : LaneId) (l : Lane) :
    (s.setLane k l).pushWrites kind a bs = (s.pushWrites kind a bs).setLane k l := rfl

/-! ## Output and reports (R163) -/

/-- The job with `n` bytes of output written. -/
def RestoreJob.moved (j : RestoreJob) (n : Nat) : RestoreJob := { j with pointer := j.pointer + n, written := j.written + n }

theorem output_eq (s : Part) (k : LaneId) (j : RestoreJob) (bytes : List Byte) (h : (s.lane k).restore = some j) :
    s.output k bytes = (s.pushWrites (fun _ => .restoreOut k j.id) j.pointer bytes).setLane k
      { s.lane k with restore := some (j.moved bytes.length) } := by
  simp [Part.output, h, Part.modRestore, Part.modLane, RestoreJob.moved]

theorem reportOpen_eq (s : Part) (k : LaneId) (j : RestoreJob) (record produced a : Nat) (r : RecResult)
    (h : (s.lane k).restore = some j) (ho : j.openPrefix = some a) :
    s.reportOpen k record produced r true
      = (s.pushWrites (fun _ => .restoreOut k j.id) a (prefixBytes record produced r)).setLane k
          { s.lane k with restore := some { j.count record r with openPrefix := none } } := by
  simp [Part.reportOpen, h, ho, Part.modRestore, Part.modLane]

@[simp] theorem prefixBytes_length (record raw : Nat) (r : RecResult) : (prefixBytes record raw r).length = 16 := by
  simp [prefixBytes, zeros]

/-! ## The walk (R161) -/

/-- The walk past a segment: to the next one's place, or the buffer freed behind the last (R161). -/
theorem walkPast_eq (s : Part) (k : LaneId) (w : Walk) (h : SegHead) :
    s.walkPast k w h = s.setLane k { s.lane k with
      buffer := if w.used ≤ w.off + h.size then none else (s.lane k).buffer
      access := { (s.lane k).access with
        walk := if w.used ≤ w.off + h.size then none else some ⟨w.off + h.size, w.used, none, none⟩ } } := by
  by_cases past : w.used ≤ w.off + h.size
  · have last : ¬ w.off + h.size < w.used := by omega
    simp only [Part.walkPast, if_neg last, if_pos past, Part.freeBuffer, Part.modLane]
  · have more : w.off + h.size < w.used := by omega
    simp only [Part.walkPast, if_pos more, if_neg past, Part.modAccess, Part.modLane]

theorem restoring_of_reading (s : Part) (k : LaneId) (j : RestoreJob) (h : (s.lane k).restore = some j)
    (hp : j.phase = .reading) : s.restoring k = some j := by
  simp [Part.restoring, h, hp]

/-- UNPACK_SEGMENT on a lane whose restore is READING: the segment at the walk's place, and the buffer freed when the cursor
has passed the effective last record (R161). -/
theorem unpackSegment_reading (s : Part) (k : LaneId) (j j' : RestoreJob) (w : Walk) (block : List Byte)
    (h : (s.lane k).restore = some j) (hp : j.phase = .reading) (hb : (s.lane k).buffer = some block)
    (hw : (s.lane k).access.walk = some w) (after : (s.unpackRestore k j w block).restoring k = some j') :
    s.unpackSegment k
      = if j'.satisfied then (s.unpackRestore k j w block).freeBuffer k else s.unpackRestore k j w block := by
  simp only [Part.unpackSegment, hw, hb, restoring_of_reading s k j h hp, hp, ne_eq, not_true_eq_false, if_false, after]

/-- A segment of another stream is walked past (R161). -/
theorem unpackRestore_other (s : Part) (k : LaneId) (j : RestoreJob) (block : List Byte) (off used : Nat)
    (h : SegHead) (hh : segHead ((payloadOf block).drop off) = h) (fits : (⟨off, used, none, none⟩ : Walk).bad h = false)
    (other : h.stream ≠ j.stream.val) :
    s.unpackRestore k j ⟨off, used, none, none⟩ block = s.walkPast k ⟨off, used, none, none⟩ h := by
  subst hh
  simp only [Part.unpackRestore, fits, Bool.false_eq_true, if_false, if_pos (Or.inl other)]

theorem walk_not_bad (off used : Nat) (h : SegHead) (hu : used ≤ 32720) (hp : h.packed ≤ 4096) (hs : off + h.size ≤ used) :
    (⟨off, used, none, none⟩ : Walk).bad h = false := by
  simp only [Walk.bad, Bool.or_eq_false_iff, decide_eq_false_iff_not]
  exact ⟨⟨Nat.not_lt.mpr hu, Nat.not_lt.mpr hp⟩, Nat.not_lt.mpr hs⟩

/-- An event of the lane's walk leaves what the walk leaves. -/
theorem unpackSegment_leaves (s : State) (k : LaneId) (x : Part) (h : s.pins.resetLow = false)
    (e : s.toPart.unpackSegment k = x) : Leaves (.unpackSegment k) s x :=
  e ▸ laneEvent_leaves (.unpackSegment k) s (fun p => p.unpackSegment k) rfl h

/-- UNPACK_SEGMENT at a segment of another stream with more behind it: the walk's place moves past it (R76, R161). -/
theorem unpackSegment_other (s : Part) (k : LaneId) (j : RestoreJob) (block : List Byte) (off used : Nat) (h : SegHead)
    (hj : (s.lane k).restore = some j) (hp : j.phase = .reading) (hc : j.cursor ≤ j.effLast)
    (hb : (s.lane k).buffer = some block) (hw : (s.lane k).access.walk = some ⟨off, used, none, none⟩) (hu : used ≤ 32720)
    (hh : segHead ((payloadOf block).drop off) = h) (packed : h.packed ≤ 4096) (more : off + h.size < used)
    (other : h.stream ≠ j.stream.val) :
    s.unpackSegment k = s.setLane k { s.lane k with
      access := { (s.lane k).access with walk := some ⟨off + h.size, used, none, none⟩ } } := by
  have behind : ¬ used ≤ off + h.size := by omega
  have going : j.satisfied = false := by simp [RestoreJob.satisfied, hc]
  have fits := walk_not_bad off used h hu packed (by omega)
  have segment := unpackRestore_other s k j block off used h hh fits other
  rw [walkPast_eq] at segment
  rw [unpackSegment_reading s k j j _ block hj hp hb hw
    (segment ▸ restoring_of_reading _ k j (by rw [lane_setLane_same]; exact hj) hp), segment]
  simp [going, behind]

/-! ## A record that one segment holds whole (R15 to R17) -/

/-- The result of a record that ends with the bytes `raw` (R17). -/
def resultOf (raw : List Byte) (check : Nat) : RecResult := if foldCheck raw = check then .done else .recordCheck

theorem checkResult_after (record next check : Nat) (raw : List Byte) :
    checkResult (.after record next raw) check = resultOf raw check := rfl

/-- The decoder runs to the end of a LAST segment: the bytes are written, the record is reported with its check's result, the
slot is EMPTY and the walk goes on (R16, R17, R163). -/
theorem decodeRestore_last (s : Part) (k : LaneId) (t : Fin 8) (w : Walk) (h : SegHead) (j : RestoreJob) (d : Decoding)
    (p : Place) (a record next : Nat) (raw : List Byte) (hj : (s.lane k).restore = some j) (ho : j.openPrefix = some a)
    (hl : p.last = true) (run : decodeRun j.room d p = ⟨.after record next raw, raw, .complete⟩) :
    s.decodeRestore k t w h d p
      = (((s.pushWrites (fun _ => .restoreOut k j.id) j.pointer raw).pushWrites (fun _ => .restoreOut k j.id) a
          (prefixBytes record raw.length (resultOf raw p.check))).setLane k { s.lane k with
            restore := some { (j.moved raw.length).count record (resultOf raw p.check) with openPrefix := none }
            unpack := { (s.lane k).unpack with slots := (s.lane k).unpack.slots.set t .empty } }).walkPast k w h := by
  simp only [Part.decodeRestore, hj, run, hl, if_true, checkResult_after]
  rw [output_eq s k j raw hj, reportOpen_eq _ k (j.moved raw.length) _ _ a _ (by rw [lane_setLane_same]) ho]
  simp only [Part.setSlot, modLane_setLane, pushWrites_setLane, setLane_setLane, lane_setLane_same]
  rfl

/-- A record that has nothing written yet: its record bytes as INCOMPLETE go first, where there is room for them (R163). -/
theorem decodeOn_first (s : Part) (k : LaneId) (t : Fin 8) (w : Walk) (h : SegHead) (j : RestoreJob) (d : Decoding) (p : Place)
    (hj : (s.lane k).restore = some j) (ho : j.openPrefix = none) (room : 16 ≤ j.room) :
    s.decodeOn k t w h d p
      = ((s.pushWrites (fun _ => .restoreOut k j.id) j.pointer (prefixBytes d.record 0 .incomplete)).setLane k { s.lane k with
          restore := some ({ j with openPrefix := some j.pointer }.moved 16) }).decodeRestore k t w h d p := by
  have enough : ¬ j.room < 16 := by omega
  simp only [Part.decodeOn, hj, ho, Option.isSome_none, Bool.false_eq_true, if_false, if_neg enough]
  rw [output_eq _ k { j with openPrefix := some j.pointer } _ (by simp [Part.modRestore, Part.modLane, hj])]
  simp [Part.modRestore, Part.modLane]

/-- A FIRST segment meets an EMPTY slot: the record begins (R15). -/
theorem handRestore_first (s : Part) (k : LaneId) (t : Fin 8) (w : Walk) (h : SegHead) (bs : List Byte) (gap : Bool)
    (j : RestoreJob) (hj : (s.lane k).restore = some j) (hs : s.slot k t = .empty) (hc : h.consistent = true)
    (hf : h.first = true) :
    s.handRestore k t w h bs gap
      = (s.setLane k { s.lane k with
          restore := some { j with openPrefix := none }
          unpack := { (s.lane k).unpack with
            slots := (s.lane k).unpack.slots.set t (.decoding (.begin h.record)) } }).decodeOn k t w h (.begin h.record)
          (placeOf h bs) := by
  simp only [Part.handRestore, hj, hs, SegHead.handle, SegHead.asEmpty, hc, hf, if_true]
  simp [Part.modRestore, Part.setSlot, Part.modLane, hj]

/-- A segment of the record at the cursor, its slot EMPTY, is handed over at once: no record before it is unseen (R160, R161). -/
theorem unpackRestore_next (s : Part) (k : LaneId) (j : RestoreJob) (block : List Byte) (off used : Nat)
    (hj : (s.lane k).restore = some j) (hs : s.slot k j.stream = .empty) (hc : j.cursor ≤ j.effLast)
    (h : SegHead) (bs : List Byte) (hbs : (payloadOf block).drop off = bs) (hh : segHead bs = h)
    (fits : (⟨off, used, none, none⟩ : Walk).bad h = false) (mine : h.stream = j.stream.val) (next : h.record = j.cursor) :
    s.unpackRestore k j ⟨off, used, none, none⟩ block
      = (s.setLane k { s.lane k with
          restore := some { j with gap := false }
          access := { (s.lane k).access with walk := some ⟨off, used, none, some j.gap⟩ } }).handRestore k j.stream
            ⟨off, used, none, none⟩ h bs j.gap := by
  have inRange : ¬ (h.stream ≠ j.stream.val ∨ h.record < j.cursor ∨ j.effLast < h.record) := by omega
  have settled : s.settleGap k j.stream h j.gap = s := by simp only [Part.settleGap, hs]
  have slot : (s.lane k).unpack.slots[j.stream] = .empty := hs
  simp only [Part.unpackRestore, hbs, hh, fits, Bool.false_eq_true, if_false, if_neg inRange, settled]
  simp [Part.modRestore, Part.modAccess, Part.modLane, Part.passOn, Part.slot, hj, next, slot, reportUnseen]

/-- The own writes of a whole record from address `a` on: its record bytes as INCOMPLETE, its bytes, and its record bytes again
with the result (R163). -/
def Part.writeRecord (s : Part) (k : LaneId) (id a record : Nat) (raw : List Byte) (r : RecResult) : Part :=
  ((s.pushWrites (fun _ => .restoreOut k id) a (prefixBytes record 0 .incomplete)).pushWrites (fun _ => .restoreOut k id)
    (a + 16) raw).pushWrites (fun _ => .restoreOut k id) a (prefixBytes record raw.length r)

/-- The job with the record at its cursor written with the bytes `raw` and reported with `r` (R161, R163). -/
def RestoreJob.wrote (j : RestoreJob) (raw : List Byte) (r : RecResult) : RestoreJob :=
  { ((j.moved 16).moved raw.length).count j.cursor r with openPrefix := none }

/-- The record at the cursor, whole in one segment with room for it: decoded, written, reported and walked past (R15 to R17). -/
theorem unpackRestore_whole (s : Part) (k : LaneId) (j : RestoreJob) (block : List Byte) (off used : Nat) (h : SegHead)
    (bs : List Byte) (ts : List Token) (hj : (s.lane k).restore = some j) (hs : s.slot k j.stream = .empty)
    (hc : j.cursor ≤ j.effLast) (hg : j.gap = false) (hbs : (payloadOf block).drop off = bs) (hh : segHead bs = h)
    (fits : (⟨off, used, none, none⟩ : Walk).bad h = false) (mine : h.stream = j.stream.val) (next : h.record = j.cursor)
    (consistent : h.consistent = true) (first : h.first = true) (last : h.last = true)
    (packed : slice bs 20 h.packed = packedBytes ts) (hl : packedLength ts ≤ 4096) (tokens : ∀ t ∈ ts, t.Fits)
    (back : ∀ a l d b, ts = a ++ .copy l d :: b → d ≤ (expandAll [] a).length)
    (room : j.pointer + 16 + (expandAll [] ts).length ≤ j.destBase + j.destSize) :
    let raw := expandAll [] ts
    let r := resultOf raw (field bs (20 + h.packed) 4)
    s.unpackRestore k j ⟨off, used, none, none⟩ block
      = ((s.writeRecord k j.id j.pointer j.cursor raw r).setLane k { s.lane k with
          restore := some (j.wrote raw r)
          access := { (s.lane k).access with walk := some ⟨off, used, none, some false⟩ } }).walkPast k
            ⟨off, used, none, none⟩ h := by
  intro raw r
  have place : placeOf h bs = ⟨packedBytes ts, none, true, field bs (20 + h.packed) 4⟩ := by
    rw [placeOf, packed, last]
  have run := decodeRun_whole ts (j.room - 16) j.cursor (field bs (20 + h.packed) 4) true tokens back hl
    (by simp only [RestoreJob.room]; omega)
  have started : ∀ j' : RestoreJob, (j'.moved 16).room = j'.room - 16 := fun j' => by
    simp only [RestoreJob.room, RestoreJob.moved]; omega
  have slotBack : (s.lane k).unpack.slots.set j.stream .empty = (s.lane k).unpack.slots := by
    rw [← hs]; exact Vector.set_getElem_self _
  have settled : ({ j with gap := false } : RestoreJob) = j := by rw [← hg]
  rw [unpackRestore_next s k j block off used hj hs hc h bs hbs hh fits mine next, settled, hg,
    handRestore_first _ k j.stream _ h bs _ j (by rw [lane_setLane_same])
      (by rw [Part.slot, lane_setLane_same]; exact hs) consistent first,
    decodeOn_first _ k j.stream _ h { j with openPrefix := none } _ _ (by rw [lane_setLane_same]) rfl
      (by simp only [RestoreJob.room]; omega), place, next,
    decodeRestore_last _ k j.stream _ h (({ j with openPrefix := some j.pointer } : RestoreJob).moved 16) _ _
      j.pointer j.cursor 1 raw (by rw [lane_setLane_same]) rfl rfl ((congrArg (decodeRun · _ _) (started _)).trans run)]
  simp only [Part.writeRecord, pushWrites_setLane, setLane_setLane, lane_setLane_same, Vector.set_set, slotBack]
  rfl

/-- UNPACK_SEGMENT at a record's one segment: the walk goes on behind it, unless it was the last of the block or the cursor has
passed the effective last record (R161). -/
theorem unpackSegment_whole (s : Part) (k : LaneId) (j : RestoreJob) (block : List Byte) (off used : Nat) (h : SegHead)
    (raw : List Byte) (r : RecResult) (hj : (s.lane k).restore = some j) (hp : j.phase = .reading)
    (hb : (s.lane k).buffer = some block)
    (hw : (s.lane k).access.walk = some ⟨off, used, none, none⟩)
    (segment : s.unpackRestore k j ⟨off, used, none, none⟩ block
      = ((s.writeRecord k j.id j.pointer j.cursor raw r).setLane k { s.lane k with
          restore := some (j.wrote raw r)
          access := { (s.lane k).access with walk := some ⟨off, used, none, some false⟩ } }).walkPast k
            ⟨off, used, none, none⟩ h) :
    let finished := j.effLast < j.cursor + 1 ∨ used ≤ off + h.size
    s.unpackSegment k = (s.writeRecord k j.id j.pointer j.cursor raw r).setLane k { s.lane k with
      buffer := if finished then none else some block
      access := { (s.lane k).access with walk := if finished then none else some ⟨off + h.size, used, none, none⟩ }
      restore := some (j.wrote raw r) } := by
  intro finished
  have cursor : (j.wrote raw r).satisfied = decide (j.effLast < j.cursor + 1) := by
    simp [RestoreJob.satisfied, RestoreJob.wrote, RestoreJob.moved, RestoreJob.count]
  rw [walkPast_eq] at segment
  rw [unpackSegment_reading s k j (j.wrote raw r) _ block hj hp hb hw
    (segment ▸ restoring_of_reading _ k (j.wrote raw r) (by simp only [lane_setLane_same]) hp), segment]
  simp only [cursor, setLane_setLane, lane_setLane_same, Part.freeBuffer, modLane_setLane, hb, decide_eq_true_eq]
  by_cases satisfied : j.effLast < j.cursor + 1
  · simp only [satisfied, finished, true_or, if_true]
  · simp only [satisfied, finished, false_or, if_false]

/-- What a whole record leaves of its job, by whether the record check fits its bytes (R17, R163). -/
theorem wrote_resultOf (j : RestoreJob) (raw : List Byte) (check : Nat) :
    j.wrote raw (resultOf raw check) = { j with
      cursor := j.cursor + 1, pointer := j.pointer + 16 + raw.length, written := j.written + 16 + raw.length
      openPrefix := none
      done := if foldCheck raw = check then j.done + 1 else j.done
      failed := if foldCheck raw = check then j.failed else j.failed + 1
      firstFailed := if foldCheck raw = check then j.firstFailed else j.firstFailed <|> some j.cursor } := by
  by_cases fine : foldCheck raw = check <;>
    simp [RestoreJob.wrote, RestoreJob.moved, RestoreJob.count, resultOf, fine]

theorem prefixBytes_resultOf (record n check : Nat) (raw : List Byte) :
    prefixBytes record n (resultOf raw check)
      = leBytes 4 record ++ leBytes 8 n ++ leBytes 2 (if foldCheck raw = check then 0 else 1) ++ zeros 2 := by
  unfold resultOf
  split <;> rfl

/-- Settles O52: a segment of another stream by `unpackSegment_other`, a whole record by `unpackSegment_whole`. -/
theorem walkStepsOverOtherStream : Obligations.WalkStepsOverOtherStream := by
  constructor
  · intro s k j block off used hr hj hp hc hb hw hu h packed more other
    exact unpackSegment_leaves s k _ hr (unpackSegment_other s.toPart k j block off used h hj hp hc hb hw hu rfl packed more other)
  · intro s k j block off used ts hr hj hp hc hg hb hw hu hs bs h packed inside mine next first last index offset tokens fits
      back raw room fine finished prefixOf write x
    have consistent : h.consistent = true := by simp [SegHead.consistent, packed, first, index, offset]
    have length : packedLength ts ≤ 4096 := by
      rw [← packedBytes_length, packedBytes, ← tokens]
      exact (List.length_take_le _ _).trans packed
    have allFit : ∀ t ∈ ts, t.Fits := fun t m => by
      have fit := fits t m
      cases t <;> exact fit
    have segment := unpackRestore_whole s.toPart k j block off used h bs ts hj hs hc hg rfl rfl
      (walk_not_bad off used h hu packed inside) mine next consistent first last tokens length allFit back room
    refine unpackSegment_leaves s k _ hr
      ((unpackSegment_whole s.toPart k j block off used h raw _ hj hp hb hw segment).trans ?_)
    rw [wrote_resultOf, Part.writeRecord, prefixBytes_resultOf]
    rfl

end Sys2Proof.Machine
end

section
/-! SUPPORT. The registers whose ranges the manual fixes and the update states of the Status Block, and what the work of lanes and
changer leaves of them (R36, R123, R136, R178, R181, R140, R141, R185). -/

namespace Sys2Proof.Machine

/-! ## The ranged registers -/

/-- The code that a slot in PENDING waits to have confirmed (R178). -/
def DirSlot.pendingCode : DirSlot → Option Nat
  | .pending c => some c
  | _ => none

/-- The registers that the manual gives a range, lane 1's strap, which one range names, and the update states of the Status Block. -/
structure Ranged where
  windows : Vector (Option Window) 12
  holdLimit : Nat
  idleTime : Nat
  holds : List Label
  twin : Twin
  lnc : Bool
  pending : Option Nat
  count : Nat
  strays : Nat
  discards : Nat
  status : List SectionState

/-- The ranged registers, which are all of the still part. -/
def Still.ranged (t : Still) : Ranged :=
  { windows := t.windows, holdLimit := t.holdLimit, idleTime := t.idleTime, holds := t.holds, twin := t.twin, lnc := t.pins.lnc
    pending := t.unit.slot.pendingCode, count := t.unit.outcome.count, strays := t.changer.strays, discards := t.changer.discards
    status := t.status }

theorem pendingCode_eq (x : DirSlot) (c : Nat) : x.pendingCode = some c ↔ x = .pending c := by
  cases x <;> simp [DirSlot.pendingCode]

/-- The settings speak of the ranged registers in the frame alone. -/
theorem settings_of_frame {s t : Part} (h : t.frame.ranged = s.frame.ranged) (hs : s.Settings) : t.Settings := by
  simp only [Still.ranged, Part.frame, Part.blocks, Part.still, Ranged.mk.injEq] at h
  obtain ⟨-, hold, idle, holds, twin, lnc, pending, count, strays, discards, -⟩ := h
  constructor
  · exact hold ▸ hs.hold
  · exact idle ▸ hs.idle
  · exact holds ▸ hs.holds
  · rw [twin, lnc]; exact hs.twin
  · intro c hc
    rw [← pendingCode_eq, pending, pendingCode_eq] at hc
    exact hs.pending c hc
  · exact count ▸ hs.outcome
  · exact strays ▸ hs.strays
  · exact discards ▸ hs.discards

/-- The frame's ranged registers are those of the still part, without the update states. -/
theorem frame_ranged (s : Part) : s.frame.ranged = { s.still.ranged with status := [] } := rfl

theorem settings_of_ranged {s t : Part} (h : t.still.ranged = s.still.ranged) (hs : s.Settings) : t.Settings :=
  settings_of_frame (by rw [frame_ranged, frame_ranged, h]) hs

/-! ## The update states of the Status Block (R185) -/

/-- Each section's update state keeps its count, and no update of it has become unanswered. -/
def SectionsKept (old new : List SectionState) : Prop :=
  ∀ x n u st, old.find? (fun t => t.sec == x) = some ⟨x, n, u, st⟩ →
    ∃ u' st', new.find? (fun t => t.sec == x) = some ⟨x, n, u', st'⟩ ∧ (u = false → u' = false)

theorem sectionsKept_refl (ts : List SectionState) : SectionsKept ts ts := fun _ _ u st h => ⟨u, st, h, fun h => h⟩

theorem sectionsKept_of_eq {old new : List SectionState} (h : new = old) : SectionsKept old new := h ▸ sectionsKept_refl old

theorem SectionsKept.trans {a b c : List SectionState} (h : SectionsKept a b) (g : SectionsKept b c) : SectionsKept a c := by
  intro x n u st e
  obtain ⟨u', st', e', k⟩ := h x n u st e
  obtain ⟨u'', st'', e'', k'⟩ := g x n u' st' e'
  exact ⟨u'', st'', e'', fun r => k' (k r)⟩

theorem find_map_section (ts : List SectionState) (f : SectionState → SectionState) (sec : ∀ t, (f t).sec = t.sec) (x : Section) :
    (ts.map f).find? (fun t => t.sec == x) = (ts.find? (fun t => t.sec == x)).map f := by
  rw [List.find?_map]
  exact congrArg (Option.map f) (congrArg (List.find? · ts) (funext fun t => by simp [sec]))

/-- An update that leaves every section's name, and the count of every section's first state, which it makes no unanswered one. -/
theorem sectionsKept_map (ts : List SectionState) (f : SectionState → SectionState) (sec : ∀ t, (f t).sec = t.sec)
    (first : ∀ t, ts.find? (fun y => y.sec == t.sec) = some t →
      (f t).count = t.count ∧ (t.unanswered = false → (f t).unanswered = false)) : SectionsKept ts (ts.map f) := by
  intro x n u st e
  obtain ⟨count, answered⟩ := first ⟨x, n, u, st⟩ e
  refine ⟨(f ⟨x, n, u, st⟩).unanswered, (f ⟨x, n, u, st⟩).stale, ?_, answered⟩
  rw [find_map_section ts f sec, e, Option.map_some, Option.some_inj]
  have sec' := sec ⟨x, n, u, st⟩
  cases h : f ⟨x, n, u, st⟩
  rw [h] at sec' count
  subst sec' count
  rfl

/-! ## Lanes -/

@[simp] theorem noteLabel_still (s : Part) (k : LaneId) : (s.noteLabel k).still = s.still := by
  obtain ⟨-, e⟩ | ⟨v, -, e⟩ := noteLabel_cases s k <;> rw [e]
  rfl

@[simp] theorem itemFinished_still (s : Part) (k : LaneId) (v : Serving) : (s.itemFinished k v).still = s.still := by
  unfold Part.itemFinished
  dsimp only
  split <;> simp

@[simp] theorem delivered_still (s : Part) (k : LaneId) (v : Serving) : (s.delivered k v).still = s.still := by
  unfold Part.delivered
  dsimp only
  split <;> rfl

@[simp] theorem answerSend_still (s : Part) (k : LaneId) (id : Nat) (v : Serving) (off beats poff : Nat) (bs : List Byte) :
    (s.answerSend k id v off beats poff bs).still = s.still := by
  unfold Part.answerSend
  dsimp only
  repeat' split
  all_goals simp

@[simp] theorem serveRead_still (s : Part) (k : LaneId) (id off beats : Nat) : (s.serveRead k id off beats).still = s.still := by
  unfold Part.serveRead
  dsimp only
  repeat' split
  all_goals simp

@[simp] theorem chooseServe_still (s : Part) (k : LaneId) : (s.chooseServe k).still = s.still := rfl

@[simp] theorem sendRead_still (s : Part) (k : LaneId) (id off beats : Nat) : (s.sendRead k id off beats).still = s.still := by
  unfold Part.sendRead
  repeat' split
  all_goals simp

@[simp] theorem poolFault_still (s : Part) (k : LaneId) : (s.poolFault k).still = s.still := by
  unfold Part.poolFault Part.refuseLost
  rw [laneFault_still, foldl_still _ (fun s id => refuse_still s id _ _), dropOwn_still]

@[simp] theorem poolReadAnswered_still (s : Part) (k : LaneId) (id : Nat) (ok : Bool) (data : List Byte) :
    (s.poolReadAnswered k id ok data).still = s.still := by
  unfold Part.poolReadAnswered
  repeat' split
  all_goals simp

@[simp] theorem discardBlock_still (s : Part) (b : Nat) : (s.discardBlock b).still = s.still := by
  simp [Part.discardBlock]

@[simp] theorem poolWriteAnswered_still (s : Part) (k : LaneId) (b blk : Nat) (ok : Bool) :
    (s.poolWriteAnswered k b blk ok).still = s.still := by
  unfold Part.poolWriteAnswered
  dsimp only
  repeat' split
  all_goals simp

@[simp] theorem outputAnswered_still (s : Part) (k : LaneId) (job : Nat) (ok : Bool) :
    (s.outputAnswered k job ok).still = s.still := by
  unfold Part.outputAnswered
  dsimp only
  repeat' split
  all_goals simp

/-- A matched LABEL echo may put an entry into the Span Table, but leaves the ranged registers. -/
@[simp] theorem labelVerified_ranged (s : Part) (k : LaneId) : (s.labelVerified k).still.ranged = s.still.ranged := by
  unfold Part.labelVerified
  split
  · rfl
  · split
    · rw [laneFault_still]
    · dsimp only
      split <;> simp only [modLane_still, latch_still, setVerified_still] <;> rfl

@[simp] theorem echoMatched_ranged (s : Part) (k : LaneId) (e : SentEntry) :
    (s.echoMatched k e).still.ranged = s.still.ranged := by
  unfold Part.echoMatched
  dsimp only
  split <;> simp

@[simp] theorem echoFailed_still (s : Part) (k : LaneId) : (s.echoFailed k).still = s.still := by
  unfold Part.echoFailed
  dsimp only
  split
  · simp
  · rw [foldl_still _ (fun s e => modLane_still s k _)]
    repeat' split
    all_goals simp [modSpan_still]

@[simp] theorem judgeEcho_ranged (s : Part) (k : LaneId) (r : Return) : (s.judgeEcho k r).still.ranged = s.still.ranged := by
  unfold Part.judgeEcho
  dsimp only
  repeat' split
  all_goals simp

@[simp] theorem verifyChunkEnds_still (s : Part) (k : LaneId) : (s.verifyChunkEnds k).still = s.still := by
  unfold Part.verifyChunkEnds
  repeat' split
  all_goals simp

@[simp] theorem faultReturn_still (s : Part) (k : LaneId) (r : FormatterFault) : (s.faultReturn k r).still = s.still := by
  unfold Part.faultReturn
  dsimp only
  repeat' split
  all_goals simp

@[simp] theorem unloadedReturn_still (s : Part) (k : LaneId) : (s.unloadedReturn k).still = s.still := by
  unfold Part.unloadedReturn
  dsimp only
  repeat' split
  all_goals simp

@[simp] theorem returnDone_ranged (s : Part) (k : LaneId) (r : Return) (kind : ReturnKind) :
    (s.returnDone k r kind).still.ranged = s.still.ranged := by
  unfold Part.returnDone
  dsimp only
  repeat' split
  all_goals simp

@[simp] theorem unexpectedReturn_still (s : Part) (k : LaneId) (id : Nat) : (s.unexpectedReturn k id).still = s.still := by
  simp [Part.unexpectedReturn]

@[simp] theorem returnWrite_ranged (s : Part) (k : LaneId) (id off : Nat) (bs : List Byte) :
    (s.returnWrite k id off bs).still.ranged = s.still.ranged := by
  unfold Part.returnWrite
  dsimp only
  repeat' split
  all_goals simp

@[simp] theorem partialReadTimer_still (s : Part) (k : LaneId) : (s.partialReadTimer k).still = s.still := by
  unfold Part.partialReadTimer
  repeat' split
  all_goals simp

@[simp] theorem echoTimer_still (s : Part) (k : LaneId) : (s.echoTimer k).still = s.still := by
  unfold Part.echoTimer
  repeat' split
  all_goals simp

@[simp] theorem returnTimer_still (s : Part) (k : LaneId) : (s.returnTimer k).still = s.still := by
  unfold Part.returnTimer
  repeat' split
  all_goals simp

@[simp] theorem unpackSegment_still (s : Part) (k : LaneId) : (s.unpackSegment k).still = s.still := by
  unfold Part.unpackSegment
  dsimp only
  repeat' split
  all_goals simp

@[simp] theorem intakeWrite_still (s : Part) (i : Fin 8) (id : Nat) (t : Txn) (off : Nat) :
    (s.intakeWrite i id t off).still = s.still := by
  unfold Part.intakeWrite
  dsimp only
  repeat' split
  all_goals simp

/-! ## Changer -/

@[simp] theorem setLoc_ranged (s : Part) (p : Loc) (r : LocRecord) : (s.setLoc p r).still.ranged = s.still.ranged := rfl
@[simp] theorem dropEntry_still (s : Part) (id : Nat) : (s.dropEntry id).still = s.still := rfl
@[simp] theorem modEntry_still (s : Part) (id : Nat) (f : Entry → Entry) : (s.modEntry id f).still = s.still := rfl
@[simp] theorem send_ranged (s : Part) (c : Command) (e : Option Nat) : (s.send c e).still.ranged = s.still.ranged := rfl
@[simp] theorem dropSpan_ranged (s : Part) (l : Label) : (s.dropSpan l).still.ranged = s.still.ranged := rfl
@[simp] theorem setReceiver_ranged (s : Part) (r : Receiver) : (s.setReceiver r).still.ranged = s.still.ranged := rfl

/-- The changer's state and outstanding command replaced. -/
@[simp] theorem setOut_ranged (s : Part) (x : ChangerState) (o : Option OutCommand) :
    ({ s with changer := { s.changer with state := x, out := o } } : Part).still.ranged = s.still.ranged := rfl
@[simp] theorem setState_ranged (s : Part) (x : ChangerState) :
    ({ s with changer := { s.changer with state := x } } : Part).still.ranged = s.still.ranged := rfl

/-- A fold of steps that leave the ranged registers leaves them. -/
theorem foldl_ranged {α : Type} (f : Part → α → Part) (h : ∀ s x, (f s x).still.ranged = s.still.ranged) (xs : List α)
    (s : Part) : (xs.foldl f s).still.ranged = s.still.ranged :=
  foldl_view (fun s => s.still.ranged) f h xs s

@[simp] theorem queueOwn_still (s : Part) (j : Job) : (s.queueOwn j).still = s.still := by
  unfold Part.queueOwn
  repeat' split
  all_goals simp

@[simp] theorem inventoryDone_still (s : Part) (id : Nat) : (s.inventoryDone id).still = s.still := rfl

@[simp] theorem requestFailed_still (s : Part) (e : Entry) (t : Option Loc) (c : FailCause) (code : LaneCode) :
    (s.requestFailed e t c code).still = s.still := by
  unfold Part.requestFailed
  dsimp only
  repeat' split
  all_goals simp

@[simp] theorem requestDone_still (s : Part) (e : Entry) : (s.requestDone e).still = s.still := by
  unfold Part.requestDone
  dsimp only
  repeat' split
  all_goals simp

@[simp] theorem failEntry_still (s : Part) (e : Entry) : (s.failEntry e).still = s.still := by
  unfold Part.failEntry
  split <;> simp

@[simp] theorem changerFaulted_ranged (s : Part) : s.changerFaulted.still.ranged = s.still.ranged := by
  unfold Part.changerFaulted
  dsimp only
  rw [rise_still, latch_still, foldl_still Part.failEntry failEntry_still]
  rfl

@[simp] theorem moveMap_ranged (s : Part) (a b : Loc) (e : CmdEnd) : (s.moveMap a b e).still.ranged = s.still.ranged := by
  unfold Part.moveMap
  dsimp only
  repeat' split
  all_goals rfl

@[simp] theorem scanLabel_ranged (s : Part) (p : Loc) (l : Label) : (s.scanLabel p l).still.ranged = s.still.ranged := by
  unfold Part.scanLabel
  dsimp only
  rw [setLoc_ranged]
  exact foldl_ranged Part.forgetAt (fun s q => rfl) _ _

@[simp] theorem scanMap_ranged (s : Part) (p : Loc) (e : CmdEnd) (l : Option Label) :
    (s.scanMap p e l).still.ranged = s.still.ranged := by
  unfold Part.scanMap
  split
  · split
    · exact scanLabel_ranged s p _
    · rfl
  · rfl
  · rfl

@[simp] theorem commandOver_ranged (s : Part) (b : Bool) : (s.commandOver b).still.ranged = s.still.ranged := by
  unfold Part.commandOver
  split <;> rfl

@[simp] theorem moveEnded_ranged (s : Part) (o : OutCommand) (a b : Loc) (e : CmdEnd) :
    (s.moveEnded o a b e).still.ranged = s.still.ranged := by
  unfold Part.moveEnded
  dsimp only
  repeat' split
  all_goals simp

@[simp] theorem scanEnded_ranged (s : Part) (o : OutCommand) (p : Loc) (e : CmdEnd) (l : Option Label) :
    (s.scanEnded o p e l).still.ranged = s.still.ranged := by
  unfold Part.scanEnded
  dsimp only
  repeat' split
  all_goals simp

@[simp] theorem entryMeetsOpen_still (m : Magazine) (s : Part) (e : Entry) : (Part.entryMeetsOpen m s e).still = s.still := by
  unfold Part.entryMeetsOpen
  dsimp only
  repeat' split
  all_goals simp

@[simp] theorem magazineOpened_ranged (s : Part) (m : Magazine) : (s.magazineOpened m).still.ranged = s.still.ranged := by
  unfold Part.magazineOpened
  dsimp only
  rw [foldl_still (Part.entryMeetsOpen m) (entryMeetsOpen_still m), foldl_still Part.unknownAt unknownAt_still]
  cases m <;> rfl

@[simp] theorem magazineClosed_ranged (s : Part) (m : Magazine) : (s.magazineClosed m).still.ranged = s.still.ranged := by
  unfold Part.magazineClosed
  dsimp only
  rw [queueOwn_still]
  cases m <;> rfl

@[simp] theorem mailLoaded_ranged (s : Part) : s.mailLoaded.still.ranged = s.still.ranged := by
  rw [Part.mailLoaded, queueOwn_still]
  rfl

@[simp] theorem mailEmptied_ranged (s : Part) : s.mailEmptied.still.ranged = s.still.ranged := rfl

@[simp] theorem mechanismFault_ranged (s : Part) : s.mechanismFault.still.ranged = s.still.ranged := by
  unfold Part.mechanismFault
  repeat' split
  all_goals simp

@[simp] theorem queryOk_ranged (s : Part) (b : Byte) : (s.queryOk b).still.ranged = s.still.ranged := by
  have magazine : ∀ (s : Part) m x, (s.showMagazine m x).still.ranged = s.still.ranged := by
    intro s m x
    unfold Part.showMagazine
    repeat' split
    all_goals simp
  have mail : ∀ (s : Part) x, (s.showMail x).still.ranged = s.still.ranged := by
    intro s x
    unfold Part.showMail
    dsimp only
    repeat' split
    all_goals simp
  rw [Part.queryOk, mail, magazine, magazine]
  rfl

@[simp] theorem queryFailed_ranged (s : Part) : s.queryFailed.still.ranged = s.still.ranged := rfl

/-- A frame leaves the ranged registers but for the count of strays (R141). -/
theorem takeFrame_ranged (s : Part) (kind : Nat) (ps : List Byte) :
    (s.takeFrame kind ps).still.ranged = s.still.ranged ∨ s.takeFrame kind ps = s.stray := by
  unfold Part.takeFrame
  repeat' split
  all_goals simp

/-- A byte leaves the ranged registers but for the counts of strays and discards (R140). -/
theorem receive_ranged (s : Part) (b : Byte) :
    (s.receive b).still.ranged = s.still.ranged ∨ (s.receive b).still.ranged = s.stray.still.ranged
    ∨ (s.receive b).still.ranged = s.discardFrame.still.ranged := by
  have hunted : ∀ s : Part, (s.hunt b).still.ranged = s.still.ranged := fun s => by
    unfold Part.hunt
    split <;> simp
  unfold Part.receive
  dsimp only
  split
  · exact .inl (hunted s)
  · repeat' split
    · exact .inr (.inr (hunted _))
    · exact .inr (.inr rfl)
    · rcases takeFrame_ranged (s.setReceiver .hunting) _ _ with e | e
      · exact .inl e
      · rw [e]; exact .inr (.inl rfl)
    · exact .inr (.inr rfl)
    · exact .inl rfl

@[simp] theorem startCommand_ranged (s : Part) (c : Command) (id : Nat) :
    (s.startCommand c id).still.ranged = s.still.ranged := rfl

@[simp] theorem commandStart_ranged (s : Part) : s.commandStart.still.ranged = s.still.ranged := by
  unfold Part.commandStart Part.nextScan
  dsimp only
  repeat' split
  all_goals simp

@[simp] theorem frameSent_ranged (s : Part) : s.frameSent.still.ranged = s.still.ranged := by
  unfold Part.frameSent
  repeat' split
  all_goals rfl

@[simp] theorem answerTimer_ranged (s : Part) : s.answerTimer.still.ranged = s.still.ranged := by
  unfold Part.answerTimer
  repeat' split
  all_goals simp

@[simp] theorem queryRetry_ranged (s : Part) : s.queryRetry.still.ranged = s.still.ranged := by
  unfold Part.queryRetry
  split <;> simp

@[simp] theorem clearChanger_ranged (s : Part) : s.clearChanger.still.ranged = s.still.ranged := by
  unfold Part.clearChanger
  split <;> rfl

end Sys2Proof.Machine
end

section
/-! SUPPORT. What the directive slot and RESET PART do to the ranged registers (R178 to R180, R187). -/

namespace Sys2Proof.Machine

/-! ## Steps that leave the path settings and keep the ranges -/

/-- From `s` to `t` the settings stay in their ranges, and the update states of the Status Block keep their counts. -/
structure Part.KeepsRanges (s t : Part) : Prop where
  sections : SectionsKept s.status t.status
  settings : s.Settings → t.Settings

theorem Part.KeepsRanges.trans {s t u : Part} (h : s.KeepsRanges t) (g : t.KeepsRanges u) : s.KeepsRanges u :=
  ⟨h.sections.trans g.sections, fun hs => g.settings (h.settings hs)⟩

/-- From `s` to `t` the window table and the timing stay too. -/
structure Part.Keeps (s t : Part) : Prop extends s.KeepsRanges t where
  windows : t.path.windows = s.path.windows
  holdLimit : t.path.holdLimit = s.path.holdLimit
  idleTime : t.path.idleTime = s.path.idleTime

/-- A step that leaves the path settings and the update states, and keeps the settings in their ranges. -/
theorem keeps_of_eq {s t : Part} (status : t.status = s.status) (windows : t.path.windows = s.path.windows)
    (holdLimit : t.path.holdLimit = s.path.holdLimit) (idleTime : t.path.idleTime = s.path.idleTime)
    (settings : s.Settings → t.Settings) : s.Keeps t := ⟨⟨sectionsKept_of_eq status, settings⟩, windows, holdLimit, idleTime⟩

theorem keeps_of_ranged {s t : Part} (h : t.still.ranged = s.still.ranged) : s.Keeps t :=
  keeps_of_eq (congrArg Ranged.status h) (congrArg Ranged.windows h) (congrArg Ranged.holdLimit h) (congrArg Ranged.idleTime h)
    (settings_of_ranged h)

theorem keeps_refl (s : Part) : s.Keeps s := keeps_of_ranged rfl

theorem Part.Keeps.trans {s t u : Part} (h : s.Keeps t) (g : t.Keeps u) : s.Keeps u :=
  ⟨h.toKeepsRanges.trans g.toKeepsRanges, g.windows.trans h.windows, g.holdLimit.trans h.holdLimit, g.idleTime.trans h.idleTime⟩

/-- A step that leaves the ranged registers of what another step keeps. -/
theorem Part.Keeps.of_ranged {s t u : Part} (h : s.Keeps t) (g : u.still.ranged = t.still.ranged) : s.Keeps u :=
  h.trans (keeps_of_ranged g)

/-! ## The slot -/

/-- The slot takes a state other than PENDING with an unguarded code. -/
theorem setDirSlot_keeps (s : Part) (x : DirSlot) (h : ∀ c, x = .pending c → c ∈ guardedTable) : s.Keeps (s.setDirSlot x) :=
  keeps_of_eq rfl rfl rfl rfl (fun hs => { hs with pending := h })

theorem compose_keeps (s : Part) (r : Result) (d : Nat) : s.Keeps (s.compose r d) := by
  unfold Part.compose
  split
  · next c lost _ _ =>
    let o : Outcome := ⟨c, r, lost, d % 65536, (s.unit.outcome.count + 1) % 65536⟩
    have composed : s.Keeps { s with unit := { s.unit with slot := .busy c lost .outcome, outcome := o } } :=
      keeps_of_eq rfl rfl rfl rfl (fun hs => ⟨hs.hold, hs.idle, hs.holds, hs.twin, (fun _ e => nomatch e), Nat.mod_lt _ (by omega), hs.strays,
        hs.discards⟩)
    exact composed.of_ranged rfl
  · exact keeps_refl s

theorem answerOnly_keeps (s : Part) (code : Nat) (r : Result) (d : Nat) : s.Keeps (s.answerOnly code r d) :=
  (setDirSlot_keeps s (.busy code false .outcome) nofun).trans (compose_keeps _ r d)

theorem loseDirective_keeps (s : Part) : s.Keeps s.loseDirective := by
  unfold Part.loseDirective
  split
  · dsimp only
    split
    · exact keeps_of_eq rfl rfl rfl rfl (fun hs => { hs with pending := nofun })
    · exact keeps_of_eq rfl rfl rfl rfl (fun hs => { hs with pending := nofun })
  · exact keeps_refl s

theorem readBlock_keeps (s : Part) (code : Nat) (lost : Bool) : s.Keeps (s.readBlock code lost) :=
  keeps_of_eq rfl rfl rfl rfl (fun hs => { hs with pending := nofun })

theorem writesAnswered_keeps (s : Part) : s.Keeps s.writesAnswered := by
  obtain ⟨e, -⟩ | ⟨c, lost, -, -, e⟩ := writesAnswered_cases s <;> rw [e]
  · exact keeps_refl s
  · exact readBlock_keeps s c lost

theorem setStage_keeps (s : Part) (st : Stage) : s.Keeps (s.setStage st) := by
  unfold Part.setStage
  split
  · exact setDirSlot_keeps s _ nofun
  · exact keeps_refl s

/-! ## RESET PART -/

/-- `t` is `s` with other transactions unanswered or on the client line, and another refusal record. -/
def Part.SameButTransactions (s t : Part) : Prop :=
  ∃ ws cl n r, t = { s with
    path := { s.path with refusals := n, lastRefusal := r }, bus := { s.bus with waiting := ws, clientLine := cl } }

theorem Part.SameButTransactions.trans {s t u : Part} (h : s.SameButTransactions t) (g : t.SameButTransactions u) :
    s.SameButTransactions u := by
  obtain ⟨_, _, _, _, rfl⟩ := h
  obtain ⟨ws, cl, n, r, rfl⟩ := g
  exact ⟨ws, cl, n, r, rfl⟩

theorem Part.SameButTransactions.ranged {s t : Part} (h : s.SameButTransactions t) : t.still.ranged = s.still.ranged := by
  obtain ⟨_, _, _, _, rfl⟩ := h
  rfl

theorem foldl_sameButTransactions {α : Type} (f : Part → α → Part) (h : ∀ (s : Part) x, s.SameButTransactions (f s x))
    (xs : List α) (s : Part) : s.SameButTransactions (xs.foldl f s) := by
  induction xs generalizing s with
  | nil => exact ⟨_, _, _, _, rfl⟩
  | cons x xs ih => exact (h s x).trans (ih _)

theorem refuse_sameButTransactions (s : Part) (id : Nat) (r : Reason) (range : Range) :
    s.SameButTransactions (s.refuse id r range) := by
  unfold Part.refuse
  split
  · exact ⟨_, _, _, _, rfl⟩
  · exact ⟨_, _, _, _, rfl⟩

theorem releaseParameters_sameButTransactions (s : Part) : s.SameButTransactions s.releaseParameters :=
  foldl_sameButTransactions (fun s (x : Waiting) => (s.setWait x.id .line).pushClient x.id x.txn) (fun _ _ => ⟨_, _, _, _, rfl⟩) _ s

/-- What RESET PART makes the owner of an unanswered transaction do with it (R39). -/
def Part.refuseHeld (s : Part) (x : Waiting) : Part :=
  match x.wait with
  | .intake i _ _ => s.refuse x.id .noRecord (.intake i)
  | .send k _ _ => s.refuse x.id .sequence (.send k)
  | _ => s

theorem refuseHeld_sameButTransactions (s : Part) (x : Waiting) : s.SameButTransactions (s.refuseHeld x) := by
  unfold Part.refuseHeld
  split
  · exact refuse_sameButTransactions s _ _ _
  · exact refuse_sameButTransactions s _ _ _
  · exact ⟨_, _, _, _, rfl⟩

/-- The port after RESET PART: an own access on it has its answer discarded (R39). -/
def discardPort : Option PortTxn → Option PortTxn
  | some (.own a _) => some (.own a true)
  | p => p

/-- RESET PART empties the own line, discards the port's answer and the refusal record, and leaves the rest of the bus to its
transactions (R33, R39). -/
theorem resetBus_eq (s : Part) : ∃ ws cl, s.resetBus = { s with
    path := Path.blank
    bus := { s.bus with waiting := ws, clientLine := cl, ownLine := [], port := discardPort s.bus.port, lastServed := .client } } := by
  let q : Part := { s with bus := { s.bus with ownLine := [], port := discardPort s.bus.port, lastServed := .client } }
  obtain ⟨ws, cl, _, _, e⟩ := (foldl_sameButTransactions Part.refuseHeld refuseHeld_sameButTransactions q.bus.waiting q).trans
    (releaseParameters_sameButTransactions _)
  exact ⟨ws, cl, congrArg (fun x : Part => { x with path := Path.blank }) e⟩

/-- The part after RESET PART, with the transactions `ws` unanswered and `cl` on the client line (R187). -/
def Part.afterResetPart (s : Part) (ws : List Waiting) (cl : List (Nat × Txn)) : Part :=
  let b := s.resetBlocks
  let outcome : Outcome := ⟨0x7F, .accepted, false, 0, 1⟩
  { b with
    bus := { s.bus with
      waiting := ws, clientLine := cl, port := discardPort s.bus.port, lastServed := .client
      ownLine := writeBursts (fun _ => .outcome false) (s.areaBase + 0x80) (outcomeBytes outcome) }
    unit := { b.unit with slot := .busy 0x7F false .outcome, outcome := outcome }
    changer := if s.changer.out.isNone then
        { b.changer with
          state := .offline, out := some ⟨.query, none, none, false⟩, sent := s.changer.sent ++ [Command.query.frame]
          querySent := s.now }
      else b.changer
    touched := allSections }

theorem resetPart_eq (s : Part) : ∃ ws cl, s.resetPart = s.afterResetPart ws cl := by
  obtain ⟨ws, cl, e⟩ := resetBus_eq s.resetBlocks
  refine ⟨ws, cl, ?_⟩
  unfold Part.resetPart
  rw [e]
  unfold Part.afterResetPart
  cases out : s.changer.out with
  | none =>
    have idle : s.resetBlocks.changer.out.isNone = true := by simp [Part.resetBlocks, Changer.afterReset, out]
    exact congrArg (fun p : Part => { p with touched := allSections }) (if_pos idle)
  | some o =>
    have busy : ¬ s.resetBlocks.changer.out.isNone = true := by simp [Part.resetBlocks, Changer.afterReset, out]
    exact congrArg (fun p : Part => { p with touched := allSections }) (if_neg busy)

/-- RESET PART puts every ranged register but the Hold List at a value in its range (R187). -/
theorem resetPart_settings (s : Part) (hs : s.Settings) : s.resetPart.Settings := by
  obtain ⟨ws, cl, e⟩ := resetPart_eq s
  have counts : (s.afterResetPart ws cl).changer.strays = 0 ∧ (s.afterResetPart ws cl).changer.discards = 0 := by
    unfold Part.afterResetPart
    dsimp only
    split <;> exact ⟨rfl, rfl⟩
  have timing : (s.afterResetPart ws cl).path = Path.blank := rfl
  have count : (s.afterResetPart ws cl).unit.outcome.count = 1 := rfl
  rw [e]
  constructor
  · simp [timing, Path.blank]
  · simp [timing, Path.blank]
  · exact hs.holds
  · nofun
  · nofun
  · simp [count]
  · simp [counts]
  · simp [counts]

/-- RESET PART ends every update of the Status Block (R187), and keeps the counts. -/
theorem resetPart_keepsRanges (s : Part) : s.KeepsRanges s.resetPart := by
  refine ⟨?_, resetPart_settings s⟩
  obtain ⟨ws, cl, e⟩ := resetPart_eq s
  rw [e]
  exact sectionsKept_map s.status (fun t => { t with unanswered := false, stale := false }) (fun _ => rfl)
    (fun _ _ => ⟨rfl, fun _ => rfl⟩)

/-! ## Directive writes -/

/-- A directive write changes the path settings only where it confirms RESET PART. -/
theorem takeDirective_keeps (s : Part) (code : Nat) :
    s.Keeps (s.takeDirective code)
    ∨ (code = 0xC9 ∧ s.unit.slot = .pending 0x7F ∧ s.takeDirective code = s.resetPart) := by
  unfold Part.takeDirective
  split
  · left
    split
    · exact keeps_refl s
    · split
      · exact answerOnly_keeps s _ _ _
      · split
        · next guarded =>
          exact keeps_of_eq rfl rfl rfl rfl (fun hs => { hs with pending := fun c e => by cases e; simpa using guarded })
        · split
          · exact readBlock_keeps s _ _
          · exact answerOnly_keeps s _ _ _
  · next p slot =>
    split
    · next confirms =>
      unfold Part.confirmed
      split
      · next reset => exact .inr ⟨confirms, reset ▸ slot, rfl⟩
      · left
        split
        · exact setDirSlot_keeps s _ nofun
        · exact readBlock_keeps s _ _
    · exact .inl (answerOnly_keeps s _ _ _)
  · exact .inl (loseDirective_keeps s)

theorem takeDirective_keepsRanges (s : Part) (code : Nat) : s.KeepsRanges (s.takeDirective code) := by
  obtain k | ⟨-, -, e⟩ := takeDirective_keeps s code
  · exact k.toKeepsRanges
  · exact e ▸ resetPart_keepsRanges s

/-! ## Directives judged -/

theorem conclude_keeps {s : Part} (old : Part) (again : Bool) (j : Judged) (h : s.Keeps j.1) :
    s.Keeps (Part.conclude old again j) := by
  unfold Part.conclude
  dsimp only
  have settled := h.of_ranged (u := settle old j.1 again) (by rw [settle_still])
  split
  · exact settled.trans (compose_keeps _ _ _)
  · exact settled

theorem conclude_keepsRanges {s : Part} (old : Part) (again : Bool) (j : Judged) (h : s.KeepsRanges j.1) :
    s.KeepsRanges (Part.conclude old again j) :=
  h.trans (conclude_keeps old again j (keeps_refl j.1)).toKeepsRanges

theorem directive_keeps (s : Part) (code : Nat) (f : Part → Judged) (h : ∀ q : Part, q.Keeps (f q).1) :
    s.Keeps (s.directive code f) := by
  have judged := (setDirSlot_keeps s (.busy code false .outcome) nofun).trans (h _)
  unfold Part.directive
  dsimp only
  split
  · exact conclude_keeps _ _ _ judged
  · split
    · exact conclude_keeps _ _ _ judged
    · exact answerOnly_keeps s _ _ _
  · exact loseDirective_keeps s

/-- A directive that the slot does not take changes no path setting, whatever its judgement would do. -/
theorem directive_untaken (s : Part) (code : Nat) (f : Part → Judged) (h : ¬ (s.unit.slot = .ready ∨ s.unit.slot = .pending code)) :
    s.Keeps (s.directive code f) := by
  unfold Part.directive
  dsimp only
  split
  · next slot => exact absurd (.inl slot) h
  · next p slot =>
    rw [if_neg (fun e : p = code => h (.inr (e ▸ slot)))]
    exact answerOnly_keeps s _ _ _
  · exact loseDirective_keeps s

theorem directive_keepsRanges (s : Part) (code : Nat) (f : Part → Judged) (h : ∀ q : Part, q.KeepsRanges (f q).1) :
    s.KeepsRanges (s.directive code f) := by
  have judged := (setDirSlot_keeps s (.busy code false .outcome) nofun).toKeepsRanges.trans (h _)
  unfold Part.directive
  dsimp only
  split
  · exact conclude_keepsRanges _ _ _ judged
  · split
    · exact conclude_keepsRanges _ _ _ judged
    · exact (answerOnly_keeps s _ _ _).toKeepsRanges
  · exact (loseDirective_keeps s).toKeepsRanges

end Sys2Proof.Machine
end

section
/-! SUPPORT. The judgement of every directive: what it leaves of the ranged registers, and the command and Parameter Block that
spell it (R180, R190). -/

namespace Sys2Proof.Machine

/-! ## What each directive's judgement leaves -/

@[simp] theorem refused_fst (s : Part) (r : Result) : (s.refused r).1 = s := rfl
@[simp] theorem accepted_fst (s : Part) (d : Nat) : (s.accepted d).1 = s := rfl

theorem setAttn_ranged (s : Part) (mode : Byte) : (s.setAttn mode).1.still.ranged = s.still.ranged := by
  unfold Part.setAttn
  split <;> rfl

theorem setPool_ranged (s : Part) (base count : Nat) : (s.setPool base count).1.still.ranged = s.still.ranged := by
  unfold Part.setPool
  dsimp only
  repeat' split
  all_goals rfl

theorem openStream_ranged (s : Part) (stream lane : Byte) (first : Nat) :
    (s.openStream stream lane first).1.still.ranged = s.still.ranged := by
  unfold Part.openStream
  repeat' split
  all_goals rfl

theorem openRecord_ranged (s : Part) (stream : Byte) (length : Nat) :
    (s.openRecord stream length).1.still.ranged = s.still.ranged := by
  unfold Part.openRecord
  dsimp only
  repeat' split
  all_goals rfl

theorem endRecord_ranged (s : Part) (stream : Byte) : (s.endRecord stream).1.still.ranged = s.still.ranged := by
  unfold Part.endRecord
  repeat' split
  all_goals simp

theorem flushStream_ranged (s : Part) (stream : Byte) : (s.flushStream stream).1.still.ranged = s.still.ranged := by
  unfold Part.flushStream
  dsimp only
  repeat' split
  all_goals simp

theorem closeStream_ranged (s : Part) (stream : Byte) : (s.closeStream stream).1.still.ranged = s.still.ranged := by
  unfold Part.closeStream
  repeat' split
  all_goals simp

@[simp] theorem openRun_still (s : Part) (k : LaneId) (role : Role) (set slot : Nat) :
    (s.openRun k role set slot).still = s.still := rfl

theorem append_ranged (s : Part) (lane slot : Byte) (set : Nat) : (s.append lane slot set).1.still.ranged = s.still.ranged := by
  unfold Part.append
  dsimp only
  repeat' split
  all_goals simp

theorem closeVolume_ranged (s : Part) (lane : Byte) : (s.closeVolume lane).1.still.ranged = s.still.ranged := by
  unfold Part.closeVolume
  repeat' split
  all_goals simp

@[simp] theorem stopRun_still (s : Part) (k : LaneId) : (s.stopRun k).still = s.still := by
  unfold Part.stopRun
  dsimp only
  split <;> simp

theorem endRunDirective_ranged (s : Part) (lane : Byte) : (s.endRunDirective lane).1.still.ranged = s.still.ranged := by
  unfold Part.endRunDirective
  dsimp only
  repeat' split
  all_goals simp

theorem holdLane_ranged (s : Part) (lane : Byte) : (s.holdLane lane).1.still.ranged = s.still.ranged := by
  unfold Part.holdLane
  split <;> simp

theorem releaseLane_ranged (s : Part) (lane : Byte) : (s.releaseLane lane).1.still.ranged = s.still.ranged := by
  unfold Part.releaseLane
  split <;> simp

@[simp] theorem cancelVolume_still (s : Part) (k : LaneId) : (s.cancelVolume k).still = s.still := by
  unfold Part.cancelVolume
  dsimp only
  repeat' split
  all_goals simp

@[simp] theorem cancelWork_still (s : Part) (k : LaneId) : (s.cancelWork k).still = s.still := by
  have streams : ∀ xs : List (Fin 8), (xs.foldl (fun s i => s.faultStream i .cancelled) s).still = s.still :=
    fun xs => foldl_still _ (fun s i => faultStream_still s i .cancelled) xs s
  unfold Part.cancelWork
  dsimp only
  split <;> simp [streams]

theorem cancelLane_ranged (s : Part) (lane : Byte) : (s.cancelLane lane).1.still.ranged = s.still.ranged := by
  unfold Part.cancelLane
  split <;> simp

theorem unloadDirective_ranged (s : Part) (lane : Byte) : (s.unloadDirective lane).1.still.ranged = s.still.ranged := by
  unfold Part.unloadDirective
  repeat' split
  all_goals simp

theorem inventoryDirective_ranged (s : Part) (which : Byte) :
    (s.inventoryDirective which).1.still.ranged = s.still.ranged := by
  unfold Part.inventoryDirective
  dsimp only
  repeat' split
  all_goals simp

theorem moveDirective_ranged (s : Part) (source target : Byte) :
    (s.moveDirective source target).1.still.ranged = s.still.ranged := by
  unfold Part.moveDirective
  repeat' split
  all_goals simp

theorem retire_ranged (s : Part) (label : Label) : (s.retire label).1.still.ranged = s.still.ranged := by
  unfold Part.retire
  dsimp only
  repeat' split
  all_goals simp

theorem restoreDirective_ranged (s : Part) (lane stream : Byte) (set pref first last base size : Nat) :
    (s.restoreDirective lane stream set pref first last base size).1.still.ranged = s.still.ranged := by
  unfold Part.restoreDirective
  dsimp only
  repeat' split
  all_goals simp

theorem restoreContinue_ranged (s : Part) (lane : Byte) (base size : Nat) :
    (s.restoreContinue lane base size).1.still.ranged = s.still.ranged := by
  unfold Part.restoreContinue
  dsimp only
  repeat' split
  all_goals simp

theorem verifyDirective_ranged (s : Part) (lane : Byte) (label : Label) :
    (s.verifyDirective lane label).1.still.ranged = s.still.ranged := by
  unfold Part.verifyDirective
  dsimp only
  repeat' split
  all_goals simp

theorem forgetVolume_ranged (s : Part) (label : Label) : (s.forgetVolume label).1.still.ranged = s.still.ranged := by
  unfold Part.forgetVolume
  dsimp only
  split
  · rfl
  · split
    · rfl
    · rw [accepted_fst]
      refine (foldl_ranged _ (fun s p => ?_) locs _).trans (dropSpan_ranged s label)
      split <;> rfl

@[simp] theorem clearLane_still (s : Part) (k : LaneId) : (s.clearLane k).still = s.still := by
  unfold Part.clearLane Part.takeUp
  dsimp only
  repeat' split
  all_goals simp

theorem clearErrors_ranged (s : Part) (target : Byte) : (s.clearErrors target).1.still.ranged = s.still.ranged := by
  unfold Part.clearErrors
  dsimp only
  repeat' split
  all_goals simp

theorem exportSpan_keeps (s : Part) (addr : Nat) : s.Keeps (s.exportSpan addr).1 := by
  unfold Part.exportSpan
  dsimp only
  split
  · exact keeps_refl s
  · split
    · exact keeps_refl s
    · exact (setStage_keeps s _).of_ranged rfl

theorem importSpan_keeps (s : Part) (addr : Nat) : s.Keeps (s.importSpan addr).1 := by
  unfold Part.importSpan
  split
  · exact keeps_refl s
  · split
    · exact keeps_refl s
    · exact (setStage_keeps s _).of_ranged rfl

theorem importImage_ranged (s : Part) (n : Nat) (image : List Byte) :
    (s.importImage n image).1.still.ranged = s.still.ranged := by
  unfold Part.importImage
  split
  · rfl
  · split
    · rfl
    · rw [accepted_fst]
      refine (foldl_ranged _ (fun s p => ?_) locs _).trans rfl
      split <;> rfl

theorem importRead_keeps (s : Part) (addr : Nat) (image : List Byte) (last : Bool) : s.Keeps (s.importRead addr image last).1 := by
  unfold Part.importRead
  dsimp only
  split
  · exact setStage_keeps s _
  · split
    · exact keeps_refl s
    · split
      · exact (setStage_keeps s _).of_ranged rfl
      · exact keeps_of_ranged (importImage_ranged s _ _)

/-- SET TWIN takes on only with lane 1 present (R123). -/
theorem setTwin_keeps (s : Part) (on primary : Byte) : s.Keeps (s.setTwin on primary).1 := by
  unfold Part.setTwin
  split
  · exact keeps_refl s
  · next ok =>
    split
    · exact keeps_refl s
    · refine keeps_of_eq rfl rfl rfl rfl (fun hs => { hs with twin := fun h => ?_ })
      by_contra absent
      exact ok (.inr (.inl ⟨by simpa using h, .inr (by simpa using absent)⟩))

/-- SET HOLD puts a label on the Hold List only where it does not stand, with less than 32 there (R136). -/
theorem setHold_keeps (s : Part) (label : Label) (on : Byte) : s.Keeps (s.setHold label on).1 := by
  unfold Part.setHold
  dsimp only
  split
  · exact keeps_refl s
  · split
    · split
      · exact keeps_refl s
      · next absent =>
        split
        · exact keeps_refl s
        · next room =>
          refine keeps_of_eq rfl rfl rfl rfl (fun hs => { hs with holds := ⟨?_, ?_⟩ })
          · simp only [accepted_fst, List.length_append, List.length_singleton]
            omega
          · have fresh : label ∉ s.library.holds := by simpa using absent
            exact List.nodup_append.mpr ⟨hs.holds.2, List.nodup_singleton _, by
              rintro a ha b hb rfl
              exact fresh (List.mem_singleton.mp hb ▸ ha)⟩
    · split
      · exact keeps_of_eq rfl rfl rfl rfl (fun hs => { hs with
          holds := ⟨(List.length_filter_le _ _).trans hs.holds.1, hs.holds.2.filter _⟩ })
      · exact keeps_refl s

theorem clearHolds_keeps (s : Part) : s.Keeps s.clearHolds.1 :=
  keeps_of_eq rfl rfl rfl rfl (fun hs => { hs with holds := ⟨Nat.zero_le _, List.nodup_nil⟩ })

theorem clamp_range (n : Nat) : 1 ≤ clamp n ∧ clamp n ≤ 255 := by
  unfold clamp
  repeat' split
  all_goals omega

theorem setTiming_keepsRanges (s : Part) (hold idle : Nat) : s.KeepsRanges (s.setTiming hold idle).1 :=
  ⟨sectionsKept_refl _, fun hs => { hs with hold := clamp_range hold, idle := clamp_range idle }⟩

theorem setWindow_keepsRanges (s : Part) (role : Byte) (base size : Nat) : s.KeepsRanges (s.setWindow role base size).1 := by
  have same : (s.setWindow role base size).1.still.ranged
      = ({ s with path := { s.path with windows := (s.setWindow role base size).1.path.windows } } : Part).still.ranged := by
    unfold Part.setWindow
    dsimp only
    repeat' split
    all_goals rfl
  exact ⟨sectionsKept_of_eq (congrArg Ranged.status same), fun hs => settings_of_ranged same { hs with }⟩

/-! ## Commands that are directives -/

/-- The code of a directive that has a Parameter Block, and its judgement (R190 and the table of section 10.3). -/
def directiveOf : Instr → Option (Nat × (Part → Judged))
  | .setWindow role base size => some (0x01, fun x => x.setWindow role base.toNat size.toNat)
  | .setTiming hold idle => some (0x02, fun x => x.setTiming hold.toNat idle.toNat)
  | .setAttn mode => some (0x03, fun x => x.setAttn mode)
  | .setPool base count => some (0x10, fun x => x.setPool base.toNat count.toNat)
  | .openStream stream lane first => some (0x20, fun x => x.openStream stream lane first.toNat)
  | .openRecord stream length => some (0x21, fun x => x.openRecord stream length.toNat)
  | .endRecord stream => some (0x22, fun x => x.endRecord stream)
  | .flushStream stream => some (0x23, fun x => x.flushStream stream)
  | .closeStream stream => some (0x24, fun x => x.closeStream stream)
  | .append lane slot set => some (0x30, fun x => x.append lane slot set.toNat)
  | .closeVolume lane => some (0x31, fun x => x.closeVolume lane)
  | .endRun lane => some (0x32, fun x => x.endRunDirective lane)
  | .setTwin on primary => some (0x33, fun x => x.setTwin on primary)
  | .holdLane lane => some (0x40, fun x => x.holdLane lane)
  | .releaseLane lane => some (0x41, fun x => x.releaseLane lane)
  | .cancelLane lane => some (0x42, fun x => x.cancelLane lane)
  | .unload lane => some (0x43, fun x => x.unloadDirective lane)
  | .inventory which => some (0x50, fun x => x.inventoryDirective which)
  | .move source target => some (0x51, fun x => x.moveDirective source target)
  | .setHold label on => some (0x52, fun x => x.setHold label on)
  | .clearHolds => some (0x53, fun x => x.clearHolds)
  | .retire label => some (0x54, fun x => x.retire label)
  | .restore lane stream set pref first last base size => some (0x60, fun x => x.restoreDirective lane stream set.toNat pref.toNat first.toNat last.toNat base.toNat size.toNat)
  | .restoreContinue lane base size => some (0x61, fun x => x.restoreContinue lane base.toNat size.toNat)
  | .verifyVolume lane label => some (0x62, fun x => x.verifyDirective lane label)
  | .exportSpan addr => some (0x70, fun x => x.exportSpan addr.toNat)
  | .importSpan addr => some (0x71, fun x => x.importSpan addr.toNat)
  | .forgetVolume label => some (0x72, fun x => x.forgetVolume label)
  | .clearErrors target => some (0x78, fun x => x.clearErrors target)
  | _ => none

/-- A directive given as a command is judged by its judgement. -/
theorem exec_directiveOf {c : Instr} {code : Nat} {f : Part → Judged} (h : directiveOf c = some (code, f)) (s : State) :
    exec c s = event s (fun p => p.directive code f) := by
  cases c with
  | setWindow => cases h; rfl
  | setTiming => cases h; rfl
  | setAttn => cases h; rfl
  | setPool => cases h; rfl
  | openStream => cases h; rfl
  | openRecord => cases h; rfl
  | endRecord => cases h; rfl
  | flushStream => cases h; rfl
  | closeStream => cases h; rfl
  | append => cases h; rfl
  | closeVolume => cases h; rfl
  | endRun => cases h; rfl
  | setTwin => cases h; rfl
  | holdLane => cases h; rfl
  | releaseLane => cases h; rfl
  | cancelLane => cases h; rfl
  | unload => cases h; rfl
  | inventory => cases h; rfl
  | move => cases h; rfl
  | setHold => cases h; rfl
  | clearHolds => cases h; rfl
  | retire => cases h; rfl
  | restore => cases h; rfl
  | restoreContinue => cases h; rfl
  | verifyVolume => cases h; rfl
  | exportSpan => cases h; rfl
  | importSpan => cases h; rfl
  | forgetVolume => cases h; rfl
  | clearErrors => cases h; rfl
  | _ => cases h

/-- A Parameter Block read for a code spells a directive of that code (R190). -/
theorem directiveOf_readParameters {code : Nat} {b : List Byte} {c : Instr} (h : readParameters code b = some c) :
    ∃ f, directiveOf c = some (code, f) := by
  unfold readParameters at h
  split at h <;> cases h <;> exact ⟨_, rfl⟩

/-- A directive carried out with its Parameter Block is judged by the judgement of the directive that the block spells. -/
theorem carryOut_directiveOf {code : Nat} {b : List Byte} {c : Instr} {f : Part → Judged} (s : Part)
    (h : readParameters code b = some c) (hf : directiveOf c = some (code, f)) :
    s.carryOut code b = Part.conclude s (chooseAgain s (f s) (code == 0x54)) (f s) := by
  unfold Part.carryOut
  rw [h]
  cases c with
  | setWindow => cases hf; rfl
  | setTiming => cases hf; rfl
  | setAttn => cases hf; rfl
  | setPool => cases hf; rfl
  | openStream => cases hf; rfl
  | openRecord => cases hf; rfl
  | endRecord => cases hf; rfl
  | flushStream => cases hf; rfl
  | closeStream => cases hf; rfl
  | append => cases hf; rfl
  | closeVolume => cases hf; rfl
  | endRun => cases hf; rfl
  | setTwin => cases hf; rfl
  | holdLane => cases hf; rfl
  | releaseLane => cases hf; rfl
  | cancelLane => cases hf; rfl
  | unload => cases hf; rfl
  | inventory => cases hf; rfl
  | move => cases hf; rfl
  | setHold => cases hf; rfl
  | clearHolds => cases hf; rfl
  | retire => cases hf; rfl
  | restore => cases hf; rfl
  | restoreContinue => cases hf; rfl
  | verifyVolume => cases hf; rfl
  | exportSpan => cases hf; rfl
  | importSpan => cases hf; rfl
  | forgetVolume => cases hf; rfl
  | clearErrors => cases hf; rfl
  | _ => cases hf

theorem carryOut_of_none {code : Nat} {b : List Byte} (s : Part) (h : readParameters code b = none) :
    s.carryOut code b = s.answerOnly code .unknownCode 0 := by
  unfold Part.carryOut
  rw [h]

/-- Every directive but SET WINDOW and SET TIMING leaves the path settings. -/
theorem directiveOf_keeps {c : Instr} {code : Nat} {f : Part → Judged} (h : directiveOf c = some (code, f))
    (hw : code ≠ 0x01) (ht : code ≠ 0x02) (q : Part) : q.Keeps (f q).1 := by
  cases c with
  | setWindow => cases h; exact absurd rfl hw
  | setTiming => cases h; exact absurd rfl ht
  | setAttn => cases h; exact keeps_of_ranged (setAttn_ranged ..)
  | setPool => cases h; exact keeps_of_ranged (setPool_ranged ..)
  | openStream => cases h; exact keeps_of_ranged (openStream_ranged ..)
  | openRecord => cases h; exact keeps_of_ranged (openRecord_ranged ..)
  | endRecord => cases h; exact keeps_of_ranged (endRecord_ranged ..)
  | flushStream => cases h; exact keeps_of_ranged (flushStream_ranged ..)
  | closeStream => cases h; exact keeps_of_ranged (closeStream_ranged ..)
  | append => cases h; exact keeps_of_ranged (append_ranged ..)
  | closeVolume => cases h; exact keeps_of_ranged (closeVolume_ranged ..)
  | endRun => cases h; exact keeps_of_ranged (endRunDirective_ranged ..)
  | setTwin => cases h; exact setTwin_keeps ..
  | holdLane => cases h; exact keeps_of_ranged (holdLane_ranged ..)
  | releaseLane => cases h; exact keeps_of_ranged (releaseLane_ranged ..)
  | cancelLane => cases h; exact keeps_of_ranged (cancelLane_ranged ..)
  | unload => cases h; exact keeps_of_ranged (unloadDirective_ranged ..)
  | inventory => cases h; exact keeps_of_ranged (inventoryDirective_ranged ..)
  | move => cases h; exact keeps_of_ranged (moveDirective_ranged ..)
  | setHold => cases h; exact setHold_keeps ..
  | clearHolds => cases h; exact clearHolds_keeps _
  | retire => cases h; exact keeps_of_ranged (retire_ranged ..)
  | restore => cases h; exact keeps_of_ranged (restoreDirective_ranged ..)
  | restoreContinue => cases h; exact keeps_of_ranged (restoreContinue_ranged ..)
  | verifyVolume => cases h; exact keeps_of_ranged (verifyDirective_ranged ..)
  | exportSpan => cases h; exact exportSpan_keeps ..
  | importSpan => cases h; exact importSpan_keeps ..
  | forgetVolume => cases h; exact keeps_of_ranged (forgetVolume_ranged ..)
  | clearErrors => cases h; exact keeps_of_ranged (clearErrors_ranged ..)
  | _ => cases h

/-- Every directive keeps the settings in their ranges. -/
theorem directiveOf_keepsRanges {c : Instr} {code : Nat} {f : Part → Judged} (h : directiveOf c = some (code, f)) (q : Part) :
    q.KeepsRanges (f q).1 := by
  cases c with
  | setWindow => cases h; exact setWindow_keepsRanges q _ _ _
  | setTiming => cases h; exact setTiming_keepsRanges q _ _
  | _ => exact (directiveOf_keeps h (by rintro rfl; cases h) (by rintro rfl; cases h) q).toKeepsRanges

end Sys2Proof.Machine
end

section
/-! SUPPORT. What transactions, memory's answers and frames leave of the ranged registers. -/

namespace Sys2Proof.Machine

/-! ## Events -/

/-- The end of an event leaves the ranged registers; the update states it may change (R185). -/
theorem report_settings (old s : Part) (hs : s.Settings) : (report old s).Settings :=
  settings_of_frame (congrArg Still.ranged (report_frame old s)) hs

theorem report_pathSettings (old s : Part) : (report old s).path.windows = s.path.windows
    ∧ (report old s).path.holdLimit = s.path.holdLimit ∧ (report old s).path.idleTime = s.path.idleTime :=
  have same := report_frame old s
  ⟨congrArg Still.windows same, congrArg Still.holdLimit same, congrArg Still.idleTime same⟩

/-- The step from `s` to `t` leaves the path settings, or `b` allows it to change them; it keeps the settings in their ranges. -/
def Part.KeepsUnless (b : Prop) (s t : Part) : Prop := s.Keeps t ∨ b ∧ s.KeepsRanges t

theorem Part.KeepsUnless.keepsRanges {b : Prop} {s t : Part} (h : s.KeepsUnless b t) : s.KeepsRanges t :=
  h.elim (·.toKeepsRanges) (·.2)

theorem Part.KeepsUnless.trans {b : Prop} {s t u : Part} (h : s.KeepsUnless b t) (g : t.Keeps u) : s.KeepsUnless b u :=
  h.imp (·.trans g) (fun ⟨hb, k⟩ => ⟨hb, k.trans g.toKeepsRanges⟩)

theorem Part.KeepsUnless.of_ranged {b : Prop} {s t u : Part} (h : s.KeepsUnless b t)
    (g : u.still.ranged = t.still.ranged) : s.KeepsUnless b u := h.trans (keeps_of_ranged g)

/-- What an event comes to: with RESETN low nothing, else its effect and the end of the event (R39). -/
theorem event_cases {s t : State} {f : Part → Part} (e : event s f = .next t) :
    t = s ∨ s.pins.resetLow = false ∧ t.toPart = report s.toPart (f s.toPart) := by
  cases low : s.pins.resetLow
  · rw [event_next s f low] at e
    cases e
    exact .inr ⟨rfl, rfl⟩
  · simp only [event, live, low, if_true] at e
    cases e
    exact .inl rfl

/-- The command is an event whose effect leaves the path settings where `b` does not hold, and keeps the settings in their ranges. -/
def KeepsExcept (c : Instr) (b : Part → Prop) : Prop :=
  ∃ f : Part → Part, (∀ s : State, exec c s = event s f) ∧ ∀ s : Part, s.pins.resetLow = false → s.KeepsUnless (b s) (f s)

section KeepsExcept
variable {c : Instr} {b : Part → Prop} {f : Part → Part}

theorem keepsExcept_event (e : ∀ s : State, exec c s = event s f)
    (h : ∀ s : Part, s.pins.resetLow = false → s.KeepsUnless (b s) (f s)) : KeepsExcept c b := ⟨f, e, h⟩

/-- An event whose effect leaves the ranged registers. -/
theorem keepsExcept_of_ranged (e : ∀ s : State, exec c s = event s f) (h : ∀ s : Part, (f s).still.ranged = s.still.ranged) :
    KeepsExcept c b := ⟨f, e, fun s _ => .inl (keeps_of_ranged (h s))⟩

theorem keepsExcept_of_still (e : ∀ s : State, exec c s = event s f) (h : ∀ s : Part, (f s).still = s.still) : KeepsExcept c b :=
  keepsExcept_of_ranged e fun s => congrArg Still.ranged (h s)

theorem keepsExcept_laneEvent (e : ∀ s : State, exec c s = laneEvent s f)
    (h : ∀ s : Part, s.pins.resetLow = false → s.KeepsUnless (b s) (f s)) : KeepsExcept c b :=
  ⟨fun p => settle p (f p) false, e, fun s low => (h s low).of_ranged (congrArg Still.ranged (settle_still _ _ _))⟩

/-- A lane event whose effect leaves the ranged registers. -/
theorem keepsExcept_of_ranged_lane (e : ∀ s : State, exec c s = laneEvent s f)
    (h : ∀ s : Part, (f s).still.ranged = s.still.ranged) : KeepsExcept c b :=
  keepsExcept_laneEvent e fun s _ => .inl (keeps_of_ranged (h s))

theorem keepsExcept_of_still_lane (e : ∀ s : State, exec c s = laneEvent s f) (h : ∀ s : Part, (f s).still = s.still) :
    KeepsExcept c b := keepsExcept_of_ranged_lane e fun s => congrArg Still.ranged (h s)

end KeepsExcept

/-! ## Transactions and answers -/

@[simp] theorem accept_ranged (s : Part) (t : Txn) : (s.accept t).2.still.ranged = s.still.ranged := rfl
@[simp] theorem pushClient_ranged (s : Part) (id : Nat) (t : Txn) : (s.pushClient id t).still.ranged = s.still.ranged := rfl
@[simp] theorem freePort_ranged (s : Part) : s.freePort.still.ranged = s.still.ranged := rfl

theorem clientTransaction_ranged (s : Part) (t : Txn) : (s.clientTransaction t).still.ranged = s.still.ranged := by
  obtain ⟨id, q, accepted⟩ : ∃ id q, s.accept t = (id, q) := ⟨_, _, rfl⟩
  have same : q.still.ranged = s.still.ranged := congrArg (fun x => x.2.still.ranged) accepted.symm
  unfold Part.clientTransaction
  rw [accepted]
  dsimp only
  split <;> simp [same]

theorem keepsExcept_kindEvent {c : Instr} {b : Part → Prop} {t : Txn} {p : Treatment → Bool}
    (e : ∀ s : State, exec c s = kindEvent s t p) : KeepsExcept c b := by
  refine keepsExcept_of_ranged_lane e fun s => ?_
  split
  · exact clientTransaction_ranged _ _
  · rfl

/-- What memory took of a client write changes the path settings only as the confirm of RESET PART. -/
theorem snoop_keeps (s : Part) (t : Txn) : s.KeepsUnless (s.unit.slot = .pending 0x7F) (s.snoop t) := by
  have masked : ∀ {m : BitVec 64}, s.Keeps { s with unit := { s.unit with mask := m } } := keeps_of_ranged rfl
  unfold Part.snoop
  dsimp only
  split
  · split
    · obtain k | ⟨-, slot, e⟩ := takeDirective_keeps { s with unit := { s.unit with mask := _ } } (byteAt t.data _).toNat
      · exact .inl (masked.trans k)
      · exact .inr ⟨slot, e ▸ masked.toKeepsRanges.trans (resetPart_keepsRanges _)⟩
    · exact .inl (keeps_of_ranged rfl)
  · exact .inl (keeps_refl s)

theorem passedAnswer_keeps (s : Part) (ok : Bool) (data : List Byte) :
    s.KeepsUnless (ok = true ∧ s.unit.slot = .pending 0x7F) (s.passedAnswer ok data) := by
  unfold Part.passedAnswer
  dsimp only
  split
  · next id t _ =>
    cases ok
    · exact .inl ((keeps_of_ranged (by simp)).trans (writesAnswered_keeps _))
    · have okayed : s.Keeps (s.freePort.okay id (if t.write = true then [] else s.freePort.passedData t data)) :=
        keeps_of_ranged (by simp)
      have slot : (s.freePort.okay id (if t.write = true then [] else s.freePort.passedData t data)).unit.slot = s.unit.slot :=
        congrArg (fun x : Still => x.unit.slot) (okay_still _ _ _)
      obtain k | ⟨pending, k⟩ := snoop_keeps (s.freePort.okay id (if t.write = true then [] else s.freePort.passedData t data)) t
      · exact .inl ((okayed.trans k).trans (writesAnswered_keeps _))
      · exact .inr ⟨⟨rfl, slot ▸ pending⟩, (okayed.toKeepsRanges.trans k).trans (writesAnswered_keeps _).toKeepsRanges⟩
  · exact .inl (keeps_refl s)

/-- A directive carried out leaves the path settings, but for SET WINDOW and SET TIMING. -/
theorem carryOut_keeps (s : Part) (code : Nat) (b : List Byte) : s.KeepsUnless (code = 0x01 ∨ code = 0x02) (s.carryOut code b) := by
  cases h : readParameters code b with
  | none =>
    rw [carryOut_of_none s h]
    exact .inl (answerOnly_keeps s _ _ _)
  | some c =>
    obtain ⟨f, hf⟩ := directiveOf_readParameters h
    rw [carryOut_directiveOf s h hf]
    by_cases path : code = 0x01 ∨ code = 0x02
    · exact .inr ⟨path, conclude_keepsRanges _ _ _ (directiveOf_keepsRanges hf s)⟩
    · exact .inl (conclude_keeps _ _ _ (directiveOf_keeps hf (fun e => path (.inl e)) (fun e => path (.inr e)) s))

theorem releaseParameters_keeps (s : Part) : s.Keeps s.releaseParameters :=
  keeps_of_ranged (releaseParameters_sameButTransactions s).ranged

theorem spanWriteAnswered_keeps (s : Part) (ok last : Bool) : s.Keeps (s.spanWriteAnswered ok last) := by
  unfold Part.spanWriteAnswered
  split
  · split
    · split
      · exact compose_keeps s _ _
      · exact keeps_refl s
    · exact (keeps_of_ranged (by simp)).trans (compose_keeps _ _ _)
  · exact keeps_refl s

theorem spanReadAnswered_keeps (s : Part) (ok last : Bool) (beats : Nat) (data : List Byte) :
    s.Keeps (s.spanReadAnswered ok last beats data) := by
  unfold Part.spanReadAnswered
  split
  · split
    · exact conclude_keeps _ _ _ (importRead_keeps s _ _ _)
    · exact (keeps_of_ranged (by simp)).trans (compose_keeps _ _ _)
  · exact keeps_refl s

theorem sectionState_sec (s : Part) (x : Section) : (s.sectionState x).sec = x := by
  unfold Part.sectionState
  cases found : s.status.find? (fun t => t.sec == x) with
  | none => rfl
  | some t => simpa using List.find?_some found

theorem setSection_over_keeps (s : Part) (x : Section) :
    s.Keeps (s.setSection { s.sectionState x with unanswered := false, stale := false }) := by
  refine ⟨⟨?_, fun hs => settings_of_frame (s := s) rfl hs⟩, rfl, rfl, rfl⟩
  refine sectionsKept_map s.status _ (fun t => ?_) (fun t found => ?_)
  · dsimp only
    split
    · next same => exact same.symm
    · rfl
  · dsimp only
    split
    · next same =>
      have state : s.sectionState x = t := by
        rw [same, sectionState_sec] at found
        simp [Part.sectionState, found]
      exact ⟨by rw [state], fun _ => rfl⟩
    · exact ⟨rfl, fun h => h⟩

/-- `s` with the update of a section ended; a stale section is marked to be written again (R185). -/
def Part.endUpdate (s : Part) (x : Section) : Part :=
  let p := s.setSection { s.sectionState x with unanswered := false, stale := false }
  if (s.sectionState x).stale then p.touch x else p

theorem endUpdate_keeps (s : Part) (x : Section) : s.Keeps (s.endUpdate x) := by
  unfold Part.endUpdate
  dsimp only
  split
  · exact (setSection_over_keeps s x).of_ranged rfl
  · exact setSection_over_keeps s x

/-- Whether an own access belongs to an update of a section. -/
def OwnKind.updates (x : Section) : OwnKind → Bool
  | .status y _ => y == x
  | _ => false

/-- An access of an update of a section answered. -/
theorem statusAnswered_keeps (s : Part) (x : Section) (ok last : Bool) : s.Keeps (s.statusAnswered x ok last) := by
  cases ok with
  | true =>
    cases last with
    | true => exact endUpdate_keeps s x
    | false => exact keeps_refl s
  | false => exact (keeps_of_ranged (s := s) (t := s.dropOwn (OwnKind.updates x)) rfl).trans (endUpdate_keeps _ x)

theorem outcomeAnswered_keeps (s : Part) (second : Bool) : s.Keeps (s.outcomeAnswered second) := by
  have ready : s.Keeps ((s.enforce.setDirSlot .ready).latch .directiveDone) :=
    ((keeps_of_ranged (s := s) (t := s.enforce) rfl).trans (setDirSlot_keeps s.enforce .ready nofun)).of_ranged
      (congrArg Still.ranged (latch_still _ _))
  unfold Part.outcomeAnswered
  split
  · exact ready
  · split
    · exact ready
    · exact keeps_of_ranged rfl
  · exact keeps_refl s

theorem parameterAnswered_keeps (s : Part) (ok : Bool) (data : List Byte) :
    s.KeepsUnless (ok = true ∧ ∃ c lost, s.unit.slot = .busy c lost .parameter ∧ (c = 0x01 ∨ c = 0x02))
      (s.parameterAnswered ok data) := by
  unfold Part.parameterAnswered
  split
  · next c lost slot =>
    have released : s.Keeps s.releaseParameters := releaseParameters_keeps s
    cases ok
    · exact .inl (released.trans (compose_keeps _ _ _))
    · obtain k | ⟨code, k⟩ := carryOut_keeps (s.releaseParameters.setDirSlot (.busy c lost .outcome)) c (padTo 64 data)
      · exact .inl ((released.trans (setDirSlot_keeps _ (.busy c lost .outcome) nofun)).trans k)
      · exact .inr ⟨⟨rfl, c, lost, slot, code⟩,
          (released.trans (setDirSlot_keeps _ (.busy c lost .outcome) nofun)).toKeepsRanges.trans k⟩
  · exact .inl (keeps_refl s)

theorem ownAnswered_keeps (s : Part) (p : OwnKind → Bool) (ok : Bool) (data : List Byte) :
    s.KeepsUnless (p .parameter = true ∧ ok = true ∧ ∃ c lost, s.unit.slot = .busy c lost .parameter ∧ (c = 0x01 ∨ c = 0x02))
      (s.ownAnswered p ok data) := by
  have free : s.Keeps s.freePort := keeps_of_ranged rfl
  unfold Part.ownAnswered
  split
  · next a discarded _ =>
    split
    · exact .inl (keeps_refl s)
    · next asked =>
      split
      · exact .inl free
      · dsimp only
        split
        · exact .inl (keeps_of_ranged (by simp))
        · exact .inl (keeps_of_ranged (by simp))
        · exact .inl (keeps_of_ranged (by simp))
        · exact .inl (free.trans (outcomeAnswered_keeps _ _))
        · exact .inl free
        · exact .inl (free.trans (statusAnswered_keeps _ _ _ _))
        · next kind =>
          obtain k | ⟨⟨rfl, slot⟩, k⟩ := parameterAnswered_keeps s.freePort ok data
          · exact .inl (free.trans k)
          · exact .inr ⟨⟨by simpa [kind] using asked, rfl, slot⟩, free.toKeepsRanges.trans k⟩
        · exact .inl (free.trans (spanWriteAnswered_keeps _ _ _))
        · exact .inl (free.trans (spanReadAnswered_keeps _ _ _ _ _))
  · exact .inl (keeps_refl s)

theorem stray_keeps (s : Part) : s.Keeps s.stray :=
  keeps_of_eq rfl rfl rfl rfl (fun hs => { hs with strays := Nat.mod_lt _ (by decide) })

theorem discardFrame_keeps (s : Part) : s.Keeps s.discardFrame :=
  keeps_of_eq rfl rfl rfl rfl (fun hs => { hs with discards := Nat.mod_lt _ (by decide) })

theorem takeFrame_keeps (s : Part) (kind : Nat) (ps : List Byte) : s.Keeps (s.takeFrame kind ps) := by
  obtain e | e := takeFrame_ranged s kind ps
  · exact keeps_of_ranged e
  · exact e ▸ stray_keeps s

theorem receive_keeps (s : Part) (b : Byte) : s.Keeps (s.receive b) := by
  obtain e | e | e := receive_ranged s b
  · exact keeps_of_ranged e
  · exact (stray_keeps s).of_ranged e
  · exact (discardFrame_keeps s).of_ranged e

theorem frameGap_keeps (s : Part) : s.Keeps s.frameGap := by
  unfold Part.frameGap
  split
  · split
    · exact discardFrame_keeps s
    · exact keeps_refl s
  · exact keeps_refl s

theorem pulseEnd_ranged (s : Part) : s.pulseEnd.still.ranged = s.still.ranged := by
  unfold Part.pulseEnd
  repeat' split
  all_goals rfl

end Sys2Proof.Machine
end

section
/-! SUPPORT. What every command does to the path settings and the ranges. Settles O57 and O60. -/

namespace Sys2Proof.Machine

/-! ## Commands and steps -/

/-- The commands that may change the window table or the timing, by the slot as it stands (R34, R36, R179, R180, R187). -/
def Part.setsPath (s : Part) : Instr → Prop
  | .setWindow .. => s.takes 0x01
  | .setTiming .. => s.takes 0x02
  | .resetPart => s.takes 0x7F
  | .resetnHigh .. => True
  | .confirm => s.unit.slot = .pending 0x7F
  | .directiveLost code | .unknownCode code => code = 0xC9 ∧ s.unit.slot = .pending 0x7F
  | .passedThroughAnswer ok _ => ok = true ∧ s.unit.slot = .pending 0x7F
  | .parameterReadAnswered ok _ | .ownAccessAnswered ok _ =>
    ok = true ∧ ∃ c lost, s.unit.slot = .busy c lost .parameter ∧ (c = 0x01 ∨ c = 0x02)
  | _ => False

theorem takeDirective_keepsUnless (s : Part) (code : Nat) :
    s.KeepsUnless (code = 0xC9 ∧ s.unit.slot = .pending 0x7F) (s.takeDirective code) := by
  obtain k | ⟨hc, slot, e⟩ := takeDirective_keeps s code
  · exact .inl k
  · exact .inr ⟨⟨hc, slot⟩, e ▸ resetPart_keepsRanges s⟩

theorem Part.KeepsUnless.mono {a b : Prop} {s t : Part} (h : s.KeepsUnless a t) (ab : a → b) : s.KeepsUnless b t :=
  h.imp id (fun ⟨ha, k⟩ => ⟨ab ha, k⟩)

/-- A directive given as a command changes the path settings only where it is SET WINDOW or SET TIMING and the slot takes it. -/
theorem directive_keepsUnless {c : Instr} {code : Nat} {f : Part → Judged} (h : directiveOf c = some (code, f)) (s : Part)
    (low : s.pins.resetLow = false) : s.KeepsUnless (s.setsPath c) (s.directive code f) := by
  have ranges := directive_keepsRanges s code f (directiveOf_keepsRanges h)
  by_cases taken : s.unit.slot = .ready ∨ s.unit.slot = .pending code
  · cases c with
    | setWindow => cases h; exact .inr ⟨⟨low, taken⟩, ranges⟩
    | setTiming => cases h; exact .inr ⟨⟨low, taken⟩, ranges⟩
    | _ => exact .inl (directive_keeps s code f (directiveOf_keeps h (by rintro rfl; cases h) (by rintro rfl; cases h)))
  · exact .inl (directive_untaken s code f taken)

theorem resetCommand_keeps (s : Part) (low : s.pins.resetLow = false) : s.KeepsUnless (s.takes 0x7F) s.resetCommand := by
  unfold Part.resetCommand
  split
  · next slot => exact .inr ⟨⟨low, .inl slot⟩, resetPart_keepsRanges s⟩
  · next p slot =>
    split
    · next code => exact .inr ⟨⟨low, .inr (code ▸ slot)⟩, resetPart_keepsRanges s⟩
    · exact .inl (answerOnly_keeps s _ _ _)
  · exact .inl (loseDirective_keeps s)

/-- The settings right after a hard reset are in their ranges. -/
theorem resetHigh_settings (s : Part) (dab : BitVec 4) (atm lnc : Bool) : (s.resetHigh dab atm lnc).Settings := by
  refine report_settings _ _ (settings_of_ranged (s := s.hardReset dab atm lnc) rfl ?_)
  constructor
  · exact (by decide : 1 ≤ 10 ∧ 10 ≤ 255)
  · exact (by decide : 1 ≤ 20 ∧ 20 ≤ 255)
  · exact ⟨Nat.zero_le _, List.nodup_nil⟩
  · nofun
  · nofun
  · exact (by decide : 0 < 65536)
  · exact (by decide : 0 < 2 ^ 32)
  · exact (by decide : 0 < 2 ^ 32)

theorem resetnHigh_settings (s : State) (dab : BitVec 4) (atm lnc : Bool) (hs : s.Settings) :
    (if s.pins.resetLow then { s with toPart := s.toPart.resetHigh dab atm lnc } else s).Settings := by
  split
  · exact resetHigh_settings _ _ _ _
  · exact hs

theorem resetLow_ranged (s : Part) : s.resetLow.still.ranged = s.still.ranged := rfl

/-- Every command but RESETN's is an event that changes the path settings only as `Part.setsPath` says, and keeps the settings in
their ranges. -/
theorem exec_effect (c : Instr) (notLow : c ≠ .resetnLow) (notHigh : ∀ d a l, c ≠ .resetnHigh d a l) :
    KeepsExcept c (fun s => s.setsPath c) := by
  cases hd : directiveOf c with
  | some d =>
    obtain ⟨code, f⟩ := d
    exact keepsExcept_event (exec_directiveOf hd) (directive_keepsUnless hd)
  | none =>
    have sent : ∀ (kind : Nat) (ps : List Byte), (∀ s, exec c s = laneEvent s (fun p => p.takeFrame kind ps)) →
        KeepsExcept c (fun s => s.setsPath c) := fun kind ps e => keepsExcept_laneEvent e (fun _ _ => .inl (takeFrame_keeps _ _ _))
    cases c with
    | resetnLow => exact absurd rfl notLow
    | resetnHigh d a l => exact absurd rfl (notHigh d a l)
    | clientTransaction x => exact keepsExcept_of_ranged_lane (fun _ => rfl) (clientTransaction_ranged · x)
    | passedThroughAnswer ok data => exact keepsExcept_laneEvent (fun _ => rfl) (fun s _ => passedAnswer_keeps s ok data)
    | conditionMaskWrite => exact keepsExcept_of_ranged (fun _ => rfl) (fun _ => rfl)
    | conditionWordRead x => exact keepsExcept_kindEvent (t := x) (p := fun y => y == .cond) (fun _ => rfl)
    | intakeWrite x => exact keepsExcept_kindEvent (t := x) (p := fun y => match y with | .intake .. => true | _ => false) (fun _ => rfl)
    | holdTimer n => exact keepsExcept_of_still (fun _ => rfl) (holdTimer_still · n)
    | encoderTakeByte i => exact keepsExcept_of_still (fun _ => rfl) (encoderTakeByte_still · i)
    | encoderDecision i => exact keepsExcept_of_still (fun _ => rfl) (encoderDecision_still · i)
    | idleTimer i => exact keepsExcept_of_still (fun _ => rfl) (idleTimer_still · i)
    | segmentAppend k => exact keepsExcept_of_still_lane (fun _ => rfl) (workHead_still · k)
    | blockIdleTimer k => exact keepsExcept_of_still_lane (fun _ => rfl) (blockIdleTimer_still · k)
    | sendRead x => exact keepsExcept_kindEvent (t := x) (p := fun y => match y with | .send .. => true | _ => false) (fun _ => rfl)
    | poolReadAnswered ok data => exact keepsExcept_event (fun _ => rfl) (fun _ _ => (ownAnswered_keeps _ _ _ _).mono (fun h => nomatch h.1))
    | partialReadTimer k => exact keepsExcept_of_still_lane (fun _ => rfl) (partialReadTimer_still · k)
    | returnWrite x => exact keepsExcept_kindEvent (t := x) (p := fun y => match y with | .ret .. => true | _ => false) (fun _ => rfl)
    | echoTimer k => exact keepsExcept_of_still_lane (fun _ => rfl) (echoTimer_still · k)
    | returnTimer k => exact keepsExcept_of_still_lane (fun _ => rfl) (returnTimer_still · k)
    | ownAccessAnswered ok data => exact keepsExcept_event (fun _ => rfl) (fun _ _ => (ownAnswered_keeps _ _ _ _).mono And.right)
    | statusUpdateAnswered ok => exact keepsExcept_event (fun _ => rfl) (fun _ _ => (ownAnswered_keeps _ _ _ _).mono (fun h => nomatch h.1))
    | parameterReadAnswered ok data => exact keepsExcept_event (fun _ => rfl) (fun _ _ => (ownAnswered_keeps _ _ _ _).mono And.right)
    | outcomeWriteAnswered ok => exact keepsExcept_event (fun _ => rfl) (fun _ _ => (ownAnswered_keeps _ _ _ _).mono (fun h => nomatch h.1))
    | directiveLost code => exact keepsExcept_event (fun _ => rfl) (fun _ _ => (takeDirective_keepsUnless _ _).mono (fun h => ⟨BitVec.eq_of_toNat_eq h.1, h.2⟩))
    | emptyCode => exact keepsExcept_event (fun _ => rfl) (fun _ _ => (takeDirective_keepsUnless _ _).mono (fun h => nomatch h.1))
    | confirm => exact keepsExcept_event (fun _ => rfl) (fun _ _ => (takeDirective_keepsUnless _ _).mono And.right)
    | unknownCode code => exact keepsExcept_event (fun _ => rfl) (fun _ _ => (takeDirective_keepsUnless _ _).mono (fun h => ⟨BitVec.eq_of_toNat_eq h.1, h.2⟩))
    | resetPart => exact keepsExcept_event (fun _ => rfl) resetCommand_keeps
    | changerCommandStart => exact keepsExcept_of_ranged_lane (fun _ => rfl) commandStart_ranged
    | moveAnswer => exact sent _ _ (fun _ => rfl)
    | scanAnswer => exact sent _ _ (fun _ => rfl)
    | queryAnswer => exact sent _ _ (fun _ => rfl)
    | answerTimer => exact keepsExcept_of_ranged_lane (fun _ => rfl) answerTimer_ranged
    | queryRetry => exact keepsExcept_of_ranged (fun _ => rfl) queryRetry_ranged
    | magazineOpened => exact sent _ _ (fun _ => rfl)
    | magazineClosed => exact sent _ _ (fun _ => rfl)
    | mailSlotLoaded => exact sent _ _ (fun _ => rfl)
    | mailSlotEmptied => exact sent _ _ (fun _ => rfl)
    | mechanismFault => exact sent _ _ (fun _ => rfl)
    | stray => exact sent _ _ (fun _ => rfl)
    | framingDiscard b => exact keepsExcept_laneEvent (fun _ => rfl) (fun s _ => .inl (receive_keeps s b))
    | frameGap => exact keepsExcept_event (fun _ => rfl) (fun s _ => .inl (frameGap_keeps s))
    | unpackSegment k => exact keepsExcept_of_still_lane (fun _ => rfl) (unpackSegment_still · k)
    | attnPulseEnd => exact keepsExcept_of_ranged (fun _ => rfl) pulseEnd_ranged
    | commandFrameSent => exact keepsExcept_of_ranged (fun _ => rfl) frameSent_ranged
    | _ => cases hd

/-- Every command keeps the settings in their ranges. -/
theorem exec_settings {s t : State} {c : Instr} (e : exec c s = .next t) (hs : s.Settings) : t.Settings := by
  by_cases notLow : c = .resetnLow
  · subst notLow
    obtain rfl := Host.Outcome.next.inj e
    exact settings_of_ranged (resetLow_ranged s.toPart) hs
  · by_cases notHigh : ∀ d a l, c ≠ .resetnHigh d a l
    · obtain ⟨f, event', keeps⟩ := exec_effect c notLow notHigh
      rw [event'] at e
      obtain rfl | ⟨high, part⟩ := event_cases e
      · exact hs
      · rw [part]
        exact report_settings _ _ ((keeps s.toPart high).keepsRanges.settings hs)
    · push Not at notHigh
      obtain ⟨d, a, l, rfl⟩ := notHigh
      obtain rfl := Host.Outcome.next.inj e
      exact resetnHigh_settings s d a l hs

/-- A command changes the path settings only as `Part.setsPath` says. -/
theorem exec_path {s t : State} {c : Instr} (e : exec c s = .next t) (leaves : ¬ s.setsPath c) :
    t.path.windows = s.path.windows ∧ t.path.holdLimit = s.path.holdLimit ∧ t.path.idleTime = s.path.idleTime := by
  by_cases notLow : c = .resetnLow
  · subst notLow
    obtain rfl := Host.Outcome.next.inj e
    exact ⟨rfl, rfl, rfl⟩
  · obtain ⟨f, event', keeps⟩ := exec_effect c notLow (by rintro d a l rfl; exact leaves trivial)
    rw [event'] at e
    obtain rfl | ⟨high, part⟩ := event_cases e
    · exact ⟨rfl, rfl, rfl⟩
    · obtain k | ⟨sets, -⟩ := keeps s.toPart high
      · obtain ⟨windows, holdLimit, idleTime⟩ := report_pathSettings s.toPart (f s.toPart)
        rw [part]
        exact ⟨windows.trans k.windows, holdLimit.trans k.holdLimit, idleTime.trans k.idleTime⟩
      · exact absurd sets leaves

/-- Settles O57: idling changes no setting, and a command keeps them all by `exec_settings`. -/
theorem stepKeepsSettings : Obligations.StepKeepsSettings := by
  intro s t hs e
  unfold step at e
  split at e
  · cases e
    exact settings_of_ranged (s := s.toPart) rfl hs
  · exact exec_settings e { hs with }

/-- Settles O60: by `exec_path`, whose exceptions the premises exclude. -/
theorem pathSettingsChangeOnlyByDirective : Obligations.PathSettingsChangeOnlyByDirective := by
  intro s t c e window timing reset high confirms carried
  refine exec_path e fun sets => ?_
  cases c with
  | setWindow b x y => exact window b x y rfl sets
  | setTiming x y => exact timing x y rfl sets
  | resetPart => exact reset rfl sets
  | resetnHigh dab atm lnc => exact high dab atm lnc rfl
  | confirm => exact confirms (.inl rfl) sets
  | directiveLost code => exact confirms (.inr (.inl (sets.1 ▸ rfl))) sets.2
  | unknownCode code => exact confirms (.inr (.inr (.inl (sets.1 ▸ rfl)))) sets.2
  | passedThroughAnswer ok data => exact confirms (.inr (.inr (.inr ⟨data, sets.1 ▸ rfl⟩))) sets.2
  | parameterReadAnswered ok data =>
    obtain ⟨rfl, code, lost, slot, path⟩ := sets
    obtain ⟨notWindow, notTiming⟩ := carried (.inl ⟨data, rfl⟩) code lost slot
    exact path.elim notWindow notTiming
  | ownAccessAnswered ok data =>
    obtain ⟨rfl, code, lost, slot, path⟩ := sets
    obtain ⟨notWindow, notTiming⟩ := carried (.inr ⟨data, rfl⟩) code lost slot
    exact path.elim notWindow notTiming
  | _ => exact sets

end Sys2Proof.Machine
end

section
/-! SUPPORT. Directives given as commands: what the end of an event leaves of each block, and how a judgement shows in the next
state. Settles O28, O30, O31 and O33. -/

namespace Sys2Proof.Machine

/-! ## The blocks at the end of an event -/

/-- The end of an event leaves every view of the blocks. -/
theorem report_view {α : Type} (v : Part → α) (hv : ∀ p : Part, v p.blocks = v p) (old s : Part) : v (report old s) = v s := by
  rw [← hv, report_blocks, hv]

@[simp] theorem report_now (old s : Part) : (report old s).now = s.now := report_view Part.now (fun _ => rfl) old s
@[simp] theorem report_pins (old s : Part) : (report old s).pins = s.pins := report_view Part.pins (fun _ => rfl) old s
@[simp] theorem report_path (old s : Part) : (report old s).path = s.path := report_view Part.path (fun _ => rfl) old s
@[simp] theorem report_force (old s : Part) : (report old s).force = s.force := report_view Part.force (fun _ => rfl) old s
@[simp] theorem report_streams (old s : Part) : (report old s).streams = s.streams := report_view Part.streams (fun _ => rfl) old s
@[simp] theorem report_pool (old s : Part) : (report old s).pool = s.pool := report_view Part.pool (fun _ => rfl) old s
@[simp] theorem report_assembly (old s : Part) : (report old s).assembly = s.assembly :=
  report_view Part.assembly (fun _ => rfl) old s
@[simp] theorem report_lanes (old s : Part) : (report old s).lanes = s.lanes := report_view Part.lanes (fun _ => rfl) old s
@[simp] theorem report_twin (old s : Part) : (report old s).twin = s.twin := report_view Part.twin (fun _ => rfl) old s
@[simp] theorem report_span (old s : Part) : (report old s).span = s.span := report_view Part.span (fun _ => rfl) old s
@[simp] theorem report_library (old s : Part) : (report old s).library = s.library := report_view Part.library (fun _ => rfl) old s
@[simp] theorem report_changer (old s : Part) : (report old s).changer = s.changer := report_view Part.changer (fun _ => rfl) old s
@[simp] theorem report_slot (old s : Part) : (report old s).unit.slot = s.unit.slot :=
  report_view (fun x : Part => x.unit.slot) (fun _ => rfl) old s
@[simp] theorem report_outcome (old s : Part) : (report old s).unit.outcome = s.unit.outcome :=
  report_view (fun x : Part => x.unit.outcome) (fun _ => rfl) old s
@[simp] theorem report_mask (old s : Part) : (report old s).unit.mask = s.unit.mask :=
  report_view (fun x : Part => x.unit.mask) (fun _ => rfl) old s
@[simp] theorem report_pulseMode (old s : Part) : (report old s).unit.pulseMode = s.unit.pulseMode :=
  report_view (fun x : Part => x.unit.pulseMode) (fun _ => rfl) old s

/-! ## A judgement shown -/

/-- The part on which a directive of `code` is judged: the slot BUSY with it (R180). -/
abbrev Part.judging (s : Part) (code : Nat) : Part := s.setDirSlot (.busy code false .outcome)

/-- A directive that the slot takes and that leaves `x`, but for the slot. -/
theorem judges_of {c : Instr} {code : Nat} {f : Part → Judged} (hd : directiveOf c = some (code, f)) {s : State}
    (h : s.takes code) {x : Part} {r : Result} {d : Nat} (hx : f (s.judging code) = (x.judging code, some (r, d))) :
    Judges c s code r d x :=
  directive_judges c s code f (exec_directiveOf hd s) h (x.judging code) r d hx rfl

/-- A directive that the slot takes and that leaves `x` with a section marked, but for the slot. -/
theorem judges_of_touched {c : Instr} {code : Nat} {f : Part → Judged} (hd : directiveOf c = some (code, f)) {s : State}
    (h : s.takes code) {x : Part} {r : Result} {d : Nat} (y : Section)
    (hx : f (s.judging code) = ((x.judging code).touch y, some (r, d))) : Judges c s code r d x :=
  directive_judges c s code f (exec_directiveOf hd s) h ((x.judging code).touch y) r d hx rfl

/-- A directive that the slot takes and that its judgement refuses. -/
theorem judges_refused {c : Instr} {code : Nat} {f : Part → Judged} (hd : directiveOf c = some (code, f)) {s : State}
    (h : s.takes code) {r : Result} (hx : f (s.judging code) = (s.judging code).refused r) : Judges c s code r 0 s.toPart :=
  judges_of hd h hx

/-! ## SET TIMING -/

theorem clamp_eq (n : Nat) : clamp n = max 1 (min 255 n) := by
  unfold clamp
  repeat' split
  all_goals omega

theorem clamp_ne (n : Nat) : clamp n ≠ n ↔ ¬ (1 ≤ n ∧ n ≤ 255) := by
  rw [clamp_eq]
  omega

/-- SET TIMING sets the nearest counts from 1 to 255, with detail 1 when one of them is another (R36). -/
theorem setTiming_eq (s : Part) (hold idle : Nat) :
    s.setTiming hold idle = Part.accepted { s with path := { s.path with
      holdLimit := max 1 (min 255 hold), idleTime := max 1 (min 255 idle) } }
      (if 1 ≤ hold ∧ hold ≤ 255 ∧ 1 ≤ idle ∧ idle ≤ 255 then 0 else 1) := by
  have same : clamp hold ≠ hold ∨ clamp idle ≠ idle ↔ ¬ (1 ≤ hold ∧ hold ≤ 255 ∧ 1 ≤ idle ∧ idle ≤ 255) := by
    rw [clamp_ne, clamp_ne]
    omega
  have detail : (if clamp hold ≠ hold ∨ clamp idle ≠ idle then 1 else 0)
      = if 1 ≤ hold ∧ hold ≤ 255 ∧ 1 ≤ idle ∧ idle ≤ 255 then 0 else 1 := by
    rw [if_congr same rfl rfl, ite_not]
  rw [← clamp_eq, ← clamp_eq, ← detail]
  rfl

/-- Settles O31. -/
theorem setTimingClamps : Obligations.SetTimingClamps := by
  intro s hold idle h
  exact judges_of (c := .setTiming hold idle) rfl h (setTiming_eq _ _ _)

/-! ## SET WINDOW -/

theorem sharesAny_true (base size : Nat) (rs : List (Nat × Nat)) :
    sharesAny base size rs = true ↔ ∃ r ∈ rs, overlaps base size r.1 r.2 = true := by
  simp [sharesAny]

theorem sharesAny_false (base size : Nat) (rs : List (Nat × Nat)) :
    sharesAny base size rs = false ↔ ∀ r ∈ rs, overlaps base size r.1 r.2 = false := by
  simp [sharesAny]

/-- SET WINDOW names a size or a base that its role may not have (R35, step 1). -/
def badWindow (role : Fin 12) (base size : Nat) : Prop := size ≠ 0 ∧ (allowedSize role size = false ∨ base % size ≠ 0)

/-- The ranges that a window of a role may share no address with (R35, step 3). -/
def Part.otherRanges (s : Part) (role : Fin 12) : List (Nat × Nat) :=
  s.areaRange :: s.windowRanges (some role) ++ s.poolRange ++ s.restoreAreas

/-- The part with a window set, or unset by size 0 (R35). -/
def Part.withWindow (s : Part) (role : Fin 12) (base size : Nat) : Part :=
  { s with path := { s.path with windows := s.path.windows.set role (if size = 0 then none else some ⟨base, size⟩) } }

/-- SET WINDOW of a role, by its checks in the order of R35. -/
theorem setWindow_cases (s : Part) (b : Byte) (role : Fin 12) (base size : Nat) (h : b.toNat = role.val) :
    (badWindow role base size → s.setWindow b base size = s.refused .parameter)
    ∧ ((role.val = 9 ∨ role.val = 11) → s.pins.lnc = false → s.setWindow b base size = s.refused .parameter)
    ∧ (¬ badWindow role base size → ((role.val = 9 ∨ role.val = 11) → s.pins.lnc = true) →
      (s.roleActive role = true → s.setWindow b base size = s.refused .state)
      ∧ (s.roleActive role = false → size ≠ 0 → sharesAny base size (s.otherRanges role) = true →
          s.setWindow b base size = s.refused .overlap)
      ∧ (s.roleActive role = false → (size ≠ 0 → sharesAny base size (s.otherRanges role) = false) →
          s.setWindow b base size = (s.withWindow role base size).accepted 0)) := by
  have inTable : b.toNat < 12 := h ▸ role.isLt
  obtain rfl : role = ⟨b.toNat, inTable⟩ := Fin.ext h.symm
  unfold badWindow Part.otherRanges Part.setWindow
  rw [dif_pos inTable]
  dsimp only
  refine ⟨fun bad => if_pos bad, fun absent lnc => ?_, fun good present => ⟨fun active => ?_, fun rest set shares => ?_,
    fun rest free => ?_⟩⟩
  · split
    · rfl
    · exact if_pos ⟨absent, lnc⟩
  all_goals rw [if_neg good, if_neg (fun c => by simp [present c.1] at c)]
  · rw [if_pos active]
  · rw [if_neg (by simp [rest]), if_pos ⟨set, shares⟩]
  · rw [if_neg (by simp [rest]), if_neg (fun c => Bool.false_ne_true ((free c.1).symm.trans c.2))]
    rfl

theorem setWindow_noRole (s : Part) (b : Byte) (base size : Nat) (h : 12 ≤ b.toNat) :
    s.setWindow b base size = s.refused .parameter := by
  unfold Part.setWindow
  exact dif_neg (by omega)

/-- Settles O30: the checks of `setWindow_cases`, met one after the other. -/
theorem setWindowSetsOrRefuses : Obligations.SetWindowSetsOrRefuses := by
  constructor
  · intro s b role base size h named present rest fits
    obtain ⟨-, -, cases⟩ := setWindow_cases (s.judging 0x01) b role base.toNat size.toNat named
    refine judges_of (c := .setWindow b base size) rfl h ?_
    refine ((cases ?_ present).2.2 rest ?_).trans rfl
    · rintro ⟨set, bad⟩
      obtain ⟨allowed, aligned, -⟩ := fits set
      exact bad.elim (fun e => by simp [allowed] at e) (· aligned)
    · exact fun set => (sharesAny_false _ _ _).mpr (fits set).2.2
  · intro s b base size h
    have refused : ∀ r, (s.judging 0x01).setWindow b base.toNat size.toNat = (s.judging 0x01).refused r →
        Judges (.setWindow b base size) s 0x01 r 0 s.toPart := fun r e => judges_refused (c := .setWindow b base size) rfl h e
    dsimp only
    refine ⟨fun parameter => refused _ ?_, fun role good named active => refused _ ?_,
      fun role good named rest set shares => refused _ ?_⟩
    · rcases Nat.lt_or_ge b.toNat 12 with inTable | beyond
      · obtain ⟨bad, absent, -⟩ := setWindow_cases (s.judging 0x01) b ⟨b.toNat, inTable⟩ base.toNat size.toNat rfl
        rcases parameter with beyond | ⟨lane, lnc⟩ | ⟨set, _, wrong⟩
        · omega
        · exact absent lane lnc
        · exact bad ⟨set, wrong⟩
      · exact setWindow_noRole _ b _ _ beyond
    all_goals
      have inTable : b.toNat < 12 := named ▸ role.isLt
      obtain rfl : role = ⟨b.toNat, inTable⟩ := Fin.ext named.symm
      have present : (b.toNat = 9 ∨ b.toNat = 11) → s.pins.lnc = true :=
        fun lane => Bool.eq_true_of_not_eq_false fun lnc => good (.inr (.inl ⟨lane, lnc⟩))
      have fits : ¬ badWindow ⟨b.toNat, inTable⟩ base.toNat size.toNat :=
        fun ⟨set, wrong⟩ => good (.inr (.inr ⟨set, inTable, wrong⟩))
      obtain ⟨-, -, cases⟩ := setWindow_cases (s.judging 0x01) b ⟨b.toNat, inTable⟩ base.toNat size.toNat rfl
    · exact (cases fits present).1 active
    · exact (cases fits present).2.1 rest set ((sharesAny_true _ _ _).mpr shares)

end Sys2Proof.Machine
end

section
/-! SUPPORT. Directives that name an absent lane or stream, SET POOL and SET TWIN. Settles O28 and O33. -/

namespace Sys2Proof.Machine

/-! ## Absent operands (R40) -/

theorem streamArg_none {b : Byte} (h : 8 ≤ b.toNat) : streamArg b = none := dif_neg (by omega)

theorem openStream_absentLane (q : Part) (i b : Byte) (n : Nat) (h : q.laneArg b = none) :
    q.openStream i b n = q.refused .parameter := by
  unfold Part.openStream
  rw [h]
  cases streamArg i <;> rfl

theorem openStream_absentStream (q : Part) (i b : Byte) (n : Nat) (h : streamArg i = none) :
    q.openStream i b n = q.refused .parameter := by
  unfold Part.openStream
  rw [h]

theorem restore_absentLane (q : Part) (b i : Byte) (w p n m x y : Nat) (h : q.laneArg b = none) :
    q.restoreDirective b i w p n m x y = q.refused .parameter := by
  unfold Part.restoreDirective
  rw [h]

theorem restore_absentStream (q : Part) (b i : Byte) (w p n m x y : Nat) (h : streamArg i = none) :
    q.restoreDirective b i w p n m x y = q.refused .parameter := by
  unfold Part.restoreDirective
  rw [h]
  cases q.laneArg b <;> rfl

/-- Settles O28: each directive looks at its lane or stream before anything else. -/
theorem absentOperandIsParameter : Obligations.AbsentOperandIsParameter := by
  refine ⟨fun s b absent => ?_, fun s b beyond => ?_, fun s single => ?_⟩
  · have none : ∀ code, (s.judging code).laneArg b = none := fun _ => absent
    refine ⟨fun h i n => ?_, fun h n w => ?_, fun h => ?_, fun h => ?_, fun h => ?_, fun h => ?_, fun h => ?_, fun h => ?_,
      fun h i w p n m x y => ?_, fun h x y => ?_, fun h l => ?_⟩
    · exact judges_refused (c := .openStream i b n) rfl h (openStream_absentLane _ i b _ absent)
    · exact judges_refused (c := .append b n w) rfl h (by simp only [Part.append, none])
    · exact judges_refused (c := .closeVolume b) rfl h (by simp only [Part.closeVolume, none])
    · exact judges_refused (c := .endRun b) rfl h (by simp only [Part.endRunDirective, none])
    · exact judges_refused (c := .holdLane b) rfl h (by simp only [Part.holdLane, none])
    · exact judges_refused (c := .releaseLane b) rfl h (by simp only [Part.releaseLane, none])
    · exact judges_refused (c := .cancelLane b) rfl h (by simp only [Part.cancelLane, none])
    · exact judges_refused (c := .unload b) rfl h (by simp only [Part.unloadDirective, none])
    · exact judges_refused (c := .restore b i w p n m x y) rfl h (restore_absentLane _ b i _ _ _ _ _ _ absent)
    · exact judges_refused (c := .restoreContinue b x y) rfl h (by simp only [Part.restoreContinue, none])
    · exact judges_refused (c := .verifyVolume b l) rfl h (by simp only [Part.verifyDirective, none])
  · have none := streamArg_none beyond
    refine ⟨fun h k n => ?_, fun h n => ?_, fun h => ?_, fun h => ?_, fun h => ?_, fun h k w p n m x y => ?_⟩
    · exact judges_refused (c := .openStream b k n) rfl h (openStream_absentStream _ b k _ none)
    · exact judges_refused (c := .openRecord b n) rfl h (by simp only [Part.openRecord, none])
    · exact judges_refused (c := .endRecord b) rfl h (by simp only [Part.endRecord, none])
    · exact judges_refused (c := .flushStream b) rfl h (by simp only [Part.flushStream, none])
    · exact judges_refused (c := .closeStream b) rfl h (by simp only [Part.closeStream, none])
    · exact judges_refused (c := .restore k b w p n m x y) rfl h (restore_absentStream _ k b _ _ _ _ _ _ none)
  · refine ⟨fun h on => ?_, fun h => ?_⟩
    · exact judges_refused (c := .setTwin on 1) rfl h (if_pos (.inr (.inr ⟨rfl, single⟩)))
    · exact judges_refused (c := .clearErrors 1) rfl h (if_neg (Bool.eq_false_iff.mp single))

/-! ## SET POOL (R62) -/

/-- SET POOL names a base or a count that it may not have (R62, step 1). -/
def badPool (base count : Nat) : Prop :=
  base % 32768 ≠ 0 ∨ (count ≠ 0 ∧ (count < 8 ∨ 64 < count)) ∨ (count ≠ 0 ∧ 2 ^ 32 < base + 32768 * count)

/-- A stream, a lane or a buffer works (R62, step 2). -/
def Part.poolBusy (s : Part) : Prop :=
  (∃ i, (s.stream i).state ≠ .closed)
  ∨ (∃ k, (s.lane k).state = .labelling ∨ (s.lane k).state = .append ∨ (s.lane k).state = .closing)
  ∨ ∃ x ∈ s.pool.buffers, x.state ≠ .free

theorem any_lanes (p : LaneId → Bool) : [LaneId.l0, .l1].any p = true ↔ ∃ k, p k = true := by
  constructor
  · intro h
    obtain ⟨k, -, hk⟩ := List.any_eq_true.mp h
    exact ⟨k, hk⟩
  · rintro ⟨k, hk⟩
    cases k <;> simp [hk]

theorem any_streams (p : Fin 8 → Bool) : streamIds.any p = true ↔ ∃ i, p i = true := by
  simp [streamIds]

theorem poolBusy_iff (s : Part) :
    (streamIds.any (fun i => (s.stream i).state != .closed)
      || [LaneId.l0, .l1].any (fun k => [LaneState.labelling, .append, .closing].contains (s.lane k).state)
      || s.pool.buffers.any (fun x => x.state != .free)) = true ↔ s.poolBusy := by
  rw [Bool.or_eq_true, Bool.or_eq_true, any_streams, any_lanes, or_assoc, Part.poolBusy]
  simp

/-- The part with the pool set, every buffer FREE in order of index, or unset by count 0 (R61, R62). -/
def Part.withPool (s : Part) (base count : Nat) : Part :=
  { s with pool :=
      if count = 0 then { geometry := none, buffers := [], free := [], waiters := [], nextBlk := s.pool.nextBlk }
      else { geometry := some ⟨base, count⟩, buffers := List.replicate count Buffer.blank
             free := List.range count, waiters := [], nextBlk := s.pool.nextBlk } }

/-- SET POOL, by its checks in the order of R62. -/
theorem setPool_cases (s : Part) (base count : Nat) :
    let shares := sharesAny base (32768 * count) (s.areaRange :: s.windowRanges none ++ s.restoreAreas)
    (badPool base count → s.setPool base count = s.refused .parameter)
    ∧ (¬ badPool base count → (s.poolBusy → s.setPool base count = s.refused .state)
      ∧ (¬ s.poolBusy → (shares = true → s.setPool base count = s.refused .overlap)
        ∧ (shares = false → s.setPool base count = ((s.withPool base count).touch .pool).accepted 0))) := by
  intro shares
  refine ⟨fun bad => if_pos bad, fun good => ⟨fun busy => ?_, fun idle => ⟨fun overlap => ?_, fun free => ?_⟩⟩⟩
  all_goals refine (if_neg good).trans ?_
  · exact if_pos ((poolBusy_iff s).mpr busy)
  all_goals refine (if_neg (mt (poolBusy_iff s).mp idle)).trans ?_
  · exact if_pos overlap
  · exact if_neg (Bool.eq_false_iff.mp free)

/-! ## SET TWIN (R123) -/

/-- A lane works or a stream is open (R123). -/
def Part.twinBusy (s : Part) : Prop :=
  (∃ k, (s.lane k).run.isOpen = true ∨ ((s.lane k).state ≠ .empty ∧ (s.lane k).state ≠ .idle))
  ∨ ∃ i, (s.stream i).state ≠ .closed

theorem twinBusy_iff (s : Part) :
    ([LaneId.l0, .l1].any (fun k => (s.lane k).run.isOpen || !(s.lane k).resting)
      || streamIds.any (fun i => (s.stream i).state != .closed)) = true ↔ s.twinBusy := by
  rw [Bool.or_eq_true, any_streams, any_lanes, Part.twinBusy]
  simp [Lane.resting]

/-- SET TWIN, by its checks in the order of R123, for an on byte of 0 or 1 and a primary lane number that R123 judges. -/
theorem setTwin_cases (s : Part) (on primary : Byte) (hon : on.toNat ≤ 1) (hp : on = 0 → primary.toNat ≤ 1) :
    let bad := (on = 1 ∧ (1 < primary.toNat ∨ s.pins.lnc = false)) ∨ (primary = 1 ∧ s.pins.lnc = false)
    (bad → s.setTwin on primary = s.refused .parameter)
    ∧ (¬ bad → (s.twinBusy → s.setTwin on primary = s.refused .state)
      ∧ (¬ s.twinBusy → s.setTwin on primary
          = Part.accepted { s with twin := ⟨on == 1, if primary = 0 then .l0 else .l1⟩ } 0)) := by
  intro bad
  refine ⟨fun h => if_pos (.inr h), fun good => ⟨fun busy => ?_, fun idle => ?_⟩⟩
  all_goals refine (if_neg (not_or.mpr ⟨by omega, good⟩)).trans ?_
  · exact if_pos ((twinBusy_iff s).mpr busy)
  · refine (if_neg (mt (twinBusy_iff s).mp idle)).trans ?_
    have small : primary.toNat ≤ 1 := by
      by_contra above
      have off : on ≠ 0 := fun e => above (hp e)
      have isOn : on = 1 := BitVec.eq_of_toNat_eq (by
        have nonzero : on.toNat ≠ 0 := fun e => off (BitVec.eq_of_toNat_eq e)
        exact Nat.le_antisymm hon (Nat.pos_of_ne_zero nonzero))
      exact good (.inl ⟨isOn, .inl (by omega)⟩)
    obtain rfl | rfl : primary = 0 ∨ primary = 1 := by
      rcases Nat.le_one_iff_eq_zero_or_eq_one.mp small with e | e
      · exact .inl (BitVec.eq_of_toNat_eq e)
      · exact .inr (BitVec.eq_of_toNat_eq e)
    · rfl
    · rfl

/-- RESET PART that the slot takes is carried out (R187). -/
theorem resetCommand_taken {s : Part} (h : s.takes 0x7F) : s.resetCommand = s.resetPart := by
  unfold Part.resetCommand
  rcases h.2 with slot | slot <;> rw [slot]
  rfl

theorem resetPart_twin (s : Part) : s.resetPart.twin = ⟨false, .l0⟩ := by
  obtain ⟨ws, cl, e⟩ := resetPart_eq s
  rw [e]
  rfl

/-- Settles O33: the checks of `setPool_cases` and `setTwin_cases`; both resets end twin mode. -/
theorem poolAndTwinSet : Obligations.PoolAndTwinSet := by
  refine ⟨fun s base count h aligned counts streams lanes buffers free => ?_, fun s base count h => ?_,
    fun s on primary h hon hp => ?_, ?_, fun s h => ?_⟩
  · obtain ⟨-, cases⟩ := setPool_cases (s.judging 0x10) base.toNat count.toNat
    have good : ¬ badPool base.toNat count.toNat := by
      rintro (off | ⟨set, few | many⟩ | ⟨set, beyond⟩) <;> omega
    have idle : ¬ (s.judging 0x10).poolBusy := by
      rintro (⟨i, opened⟩ | ⟨k, works⟩ | ⟨x, hx, used⟩)
      · exact opened (streams i)
      · obtain ⟨labelling, append, closing⟩ := lanes k
        exact works.elim labelling (·.elim append closing)
      · exact used (buffers x hx)
    exact judges_of_touched (c := .setPool base count) rfl h .pool
      ((cases good).2 idle |>.2 ((sharesAny_false _ _ _).mpr free))
  · obtain ⟨refused, cases⟩ := setPool_cases (s.judging 0x10) base.toNat count.toNat
    intro c size parameter state overlap
    have bad : parameter ↔ badPool base.toNat count.toNat := by
      rw [badPool, ← and_or_left, or_assoc]
    refine ⟨fun p => ?_, fun good busy => ?_, fun good idle shares => ?_⟩
    · exact judges_refused (c := .setPool base count) rfl h (refused (bad.mp p))
    · exact judges_refused (c := .setPool base count) rfl h ((cases (mt bad.mpr good)).1 busy)
    · exact judges_refused (c := .setPool base count) rfl h
        (((cases (mt bad.mpr good)).2 idle).1 ((sharesAny_true _ _ _).mpr shares))
  · obtain ⟨refused, cases⟩ := setTwin_cases (s.judging 0x33) on primary hon hp
    refine ⟨fun p => ?_, fun good busy => ?_, fun good idle => ?_⟩
    · exact judges_refused (c := .setTwin on primary) rfl h (refused p)
    · exact judges_refused (c := .setTwin on primary) rfl h ((cases good).1 busy)
    · exact judges_of (c := .setTwin on primary) rfl h ((cases good).2 idle)
  · change (report _ _).twin.on = false
    rw [report_twin]
    rfl
  · refine ⟨_, event_next s _ h.1, ?_⟩
    change (report _ _).twin.on = false
    rw [report_twin, resetCommand_taken h, resetPart_twin]

end Sys2Proof.Machine
end

section
/-! SUPPORT. The resets: RESETN low and high, the reset values, RESET PART. Settles O2, O3, O4 and O29. -/

namespace Sys2Proof.Machine

/-! ## RESETN low (R39) -/

/-- With RESETN low no event comes about (R39). -/
theorem event_low (s : State) (f : Part → Part) (h : s.pins.resetLow = true) : event s f = .next s := by
  simp only [event, live, h, if_true]

/-- Settles O3: RESETN low by its definition, every other command by `event_low`. -/
theorem resetLowStops : Obligations.ResetLowStops := by
  refine ⟨fun s => ⟨_, rfl, rfl, rfl, rfl, rfl, rfl, rfl, rfl, rfl, rfl, rfl, rfl, rfl, rfl, rfl, rfl, rfl, rfl, rfl, rfl, rfl⟩,
    fun s c low notLow notHigh => ?_⟩
  obtain ⟨f, hf, -⟩ := exec_effect c notLow notHigh
  exact (hf s).trans (event_low s f low)

/-! ## The bus at the end of an event -/

@[simp] theorem report_lane (old s : Part) (k : LaneId) : (report old s).lane k = s.lane k :=
  report_view (·.lane k) (fun _ => rfl) old s
@[simp] theorem report_stream (old s : Part) (i : Fin 8) : (report old s).stream i = s.stream i :=
  report_view (·.stream i) (fun _ => rfl) old s
@[simp] theorem report_loc (old s : Part) (p : Loc) : (report old s).loc p = s.loc p :=
  report_view (·.loc p) (fun _ => rfl) old s

/-- Writing sections puts updates of the Status Block behind the own line (R185). -/
theorem writeSections_ownLine (old s : Part) :
    ∃ u : List OwnAccess, (Part.writeSections old s).bus.ownLine = s.bus.ownLine ++ u
      ∧ u.all (fun a => a.kind.isStatus) = true := by
  obtain ⟨u, e, h⟩ := foldl_issued (allSections.filter fun x => s.touched.contains x || sectionChanged old s x)
    { s with touched := [], rose := 0 }
  refine ⟨u, ?_, h⟩
  have port : (Part.writeSections old s).bus.port = s.bus.port := writeSections_port old s
  rw [List.append_nil] at e
  change (Part.writeSections old s).ownIssued = s.ownIssued ++ u at e
  rw [Part.ownIssued, port, Part.ownIssued, List.append_assoc] at e
  exact List.append_cancel_left e

/-- The own line's first access goes on the port at the end of an event that finds the port free and no client waiting (R37). -/
theorem report_grants_own (old s : Part) {a : OwnAccess} {rest : List OwnAccess} (port : s.bus.port = none)
    (client : s.bus.clientLine = []) (own : s.bus.ownLine = a :: rest) :
    (report old s).bus.port = some (.own a false) ∧ (report old s).bus.clientLine = [] := by
  obtain ⟨u, line, -⟩ := writeSections_ownLine old s
  let q := (Part.writeSections old s).deliver
  have port' : q.bus.port = none := (writeSections_port old s).trans port
  have client' : q.bus.clientLine = [] := (writeSections_clientLine old s).trans client
  have own' : q.bus.ownLine = a :: (rest ++ u) := line.trans (by rw [own]; rfl)
  obtain ⟨-, busy | ⟨-, none⟩⟩ | ⟨_, _, _, -, some, -⟩ | ⟨b, more, -, some, -, granted⟩ := grant_cases q
  · exact absurd port' busy
  · rw [own'] at none; cases none
  · rw [client'] at some; cases some
  · rw [own'] at some
    cases some
    exact ⟨congrArg (·.bus.port) granted, (congrArg (·.bus.clientLine) granted).trans client'⟩

/-- With a mask of all zero ATTN is released at the end of an event, but for a pulse that runs (R183). -/
theorem report_attn_of_mask_zero (old s : Part) (mask : s.unit.mask = 0) (still : s.unit.attn = .released) :
    (report old s).unit.attn = .released := by
  have quiet : pulseCause old s = false := by simp [pulseCause, mask]
  simp [report, Part.driveAttn, quiet, mask, still, Part.deliver]

/-- The Directive Unit after an event with nothing unanswered and a mask of all zero. -/
theorem report_unit (old s : Part) (waiting : s.bus.waiting = []) (mask : s.unit.mask = 0) (still : s.unit.attn = .released) :
    (report old s).unit = s.unit := by
  have attn := report_attn_of_mask_zero old s mask still
  have latched : (report old s).unit.latched = s.unit.latched := report_keeps_latched old s (noConditionRead_of_no_waiting s waiting)
  have rest := report_view (fun p => { p.unit with latched := 0, attn := .released }) (fun _ => rfl) old s
  have split : ∀ u : DirUnit,
      u = { ({ u with latched := 0, attn := .released } : DirUnit) with latched := u.latched, attn := u.attn } := fun _ => rfl
  rw [split (report old s).unit, split s.unit, rest, latched, attn, still]

/-! ## RESETN high (R39, R188) -/

/-- The part right after RESETN went high, before the end of that event. -/
def Part.raised (s : Part) (dab : BitVec 4) (atm lnc : Bool) : Part :=
  let q := (s.hardReset dab atm lnc).send .query none
  { q.pushWrites (fun _ => .zeroOutcome) (q.areaBase + 0x80) (outcomeBytes q.unit.outcome) with touched := allSections }

theorem resetHigh_eq (s : Part) (dab : BitVec 4) (atm lnc : Bool) :
    s.resetHigh dab atm lnc = report (s.raised dab atm lnc) (s.raised dab atm lnc) := rfl

/-- The zero Outcome Word is the first own access (R188). -/
theorem raised_ownLine (s : Part) (dab : BitVec 4) (atm lnc : Bool) : (s.raised dab atm lnc).bus.ownLine
    = [writeBurst .zeroOutcome (0x1000000 * dab.toNat + 0x80) (zeros 16)] := by
  have bytes : outcomeBytes Outcome.zero = zeros 16 := by decide
  have aligned : (0x1000000 * dab.toNat + 0x80) % 128 = 0 := by omega
  have line : (s.raised dab atm lnc).bus.ownLine
      = writeBursts (fun _ => .zeroOutcome) (0x1000000 * dab.toNat + 0x80) (outcomeBytes Outcome.zero) := rfl
  rw [line, outcome_burst _ _ _ aligned, bytes]

theorem query_frame : Command.query.frame = [0xA7, 0x23, 0x00, 0xDD] := by decide

theorem resetHigh_unit (s : Part) (dab : BitVec 4) (atm lnc : Bool) : (s.resetHigh dab atm lnc).unit = DirUnit.blank atm := by
  have unit : (s.raised dab atm lnc).unit = DirUnit.blank atm := rfl
  rw [resetHigh_eq, report_unit _ _ rfl (by rw [unit]; rfl) (by rw [unit]; rfl), unit]

theorem resetHigh_waiting (s : Part) (dab : BitVec 4) (atm lnc : Bool) : (s.resetHigh dab atm lnc).bus.waiting = [] := by
  rw [resetHigh_eq, report_waiting]
  rfl

theorem resetHigh_port (s : Part) (dab : BitVec 4) (atm lnc : Bool) :
    (s.resetHigh dab atm lnc).bus.port
      = some (.own (writeBurst .zeroOutcome (0x1000000 * dab.toNat + 0x80) (zeros 16)) false)
    ∧ (s.resetHigh dab atm lnc).bus.clientLine = [] := by
  rw [resetHigh_eq]
  exact report_grants_own _ (s.raised dab atm lnc) rfl rfl (raised_ownLine s dab atm lnc)

/-- The blocks right after RESETN went high: their hard reset values, and QUERY sent (R39, R143). -/
theorem resetHigh_blocks (s : Part) (dab : BitVec 4) (atm lnc : Bool) :
    (s.resetHigh dab atm lnc).blocks = ((s.hardReset dab atm lnc).send .query none).blocks := by
  rw [resetHigh_eq, report_blocks]
  rfl

/-- A view of the blocks right after RESETN went high. -/
theorem resetHigh_view {α : Type} (v : Part → α) (hv : ∀ p : Part, v p.blocks = v p) (s : Part) (dab : BitVec 4) (atm lnc : Bool) :
    v (s.resetHigh dab atm lnc) = v ((s.hardReset dab atm lnc).send .query none) := by
  rw [← hv, resetHigh_blocks, hv]

/-- A view of the blocks of the machine at reset. -/
theorem reset_view {α : Type} (v : Part → α) (hv : ∀ p : Part, v p.blocks = v p) :
    v State.reset.toPart = v ((Part.cold.hardReset 0 false true).send .query none) :=
  resetHigh_view v hv Part.cold 0 false true

/-- Settles O4: every block by `resetHigh_view`, the unit and the bus by their own lemmas. -/
theorem resetHighResets : Obligations.ResetHighResets := by
  intro s dab atm lnc low
  obtain ⟨port, client⟩ := resetHigh_port s.toPart dab atm lnc
  have view : ∀ {α : Type} (v : Part → α), (∀ p : Part, v p.blocks = v p) →
      v (s.toPart.resetHigh dab atm lnc) = v ((s.hardReset dab atm lnc).send .query none) :=
    fun v hv => resetHigh_view v hv s.toPart dab atm lnc
  have sent : (s.resetHigh dab atm lnc).changer.sent = s.changer.sent ++ [Command.query.frame] := view (·.changer.sent) fun _ => rfl
  refine ⟨{ s with toPart := s.toPart.resetHigh dab atm lnc }, congrArg Host.Outcome.next (if_pos low),
    view Part.pins fun _ => rfl, rfl, ?_, ?_, ?_, ?_, ?_, view Part.span fun _ => rfl, ?_, ?_,
    view (·.pool.geometry) fun _ => rfl, view (·.pool.buffers) fun _ => rfl, view (·.pool.free) fun _ => rfl,
    view (·.pool.waiters) fun _ => rfl, view (·.changer.state) fun _ => rfl, view (·.changer.queue) fun _ => rfl,
    view (·.changer.lastFailure) fun _ => rfl, sent.trans (by rw [query_frame]), view (·.changer.querySent) fun _ => rfl, ?_,
    resetHigh_waiting s.toPart dab atm lnc, client, port⟩
  · exact (view Part.path fun _ => rfl).trans (reset_view Part.path fun _ => rfl).symm
  · exact (view Part.force fun _ => rfl).trans (reset_view Part.force fun _ => rfl).symm
  · exact (view Part.streams fun _ => rfl).trans (reset_view Part.streams fun _ => rfl).symm
  · exact (view Part.assembly fun _ => rfl).trans (reset_view Part.assembly fun _ => rfl).symm
  · exact (view Part.lanes fun _ => rfl).trans (reset_view Part.lanes fun _ => rfl).symm
  · exact (view Part.library fun _ => rfl).trans (reset_view Part.library fun _ => rfl).symm
  · exact (view Part.twin fun _ => rfl).trans (reset_view Part.twin fun _ => rfl).symm
  · exact (resetHigh_unit s.toPart dab atm lnc).trans
      (congrArg (fun u : DirUnit => { u with pulseMode := atm }) (resetHigh_unit Part.cold 0 false true)).symm

/-- Settles O2: the hard reset values of `Part.hardReset`, the QUERY sent, and the unit by `resetHigh_unit`. -/
theorem resetValues : Obligations.ResetValues := by
  have view : ∀ {α : Type} (v : Part → α), (∀ p : Part, v p.blocks = v p) →
      v State.reset.toPart = v ((Part.cold.hardReset 0 false true).send .query none) := reset_view
  have unit : State.reset.unit = DirUnit.blank false := resetHigh_unit Part.cold 0 false true
  have sent : State.reset.changer.sent = [Command.query.frame] := view (·.changer.sent) fun _ => rfl
  refine ⟨view (·.path.windows) fun _ => rfl, view (·.path.holdLimit) fun _ => rfl, view (·.path.idleTime) fun _ => rfl,
    view (·.path.refusals) fun _ => rfl, view (·.path.lastRefusal) fun _ => rfl, view Part.force fun _ => rfl, fun i => ?_,
    view (·.pool.geometry) fun _ => rfl, view Part.span fun _ => rfl, view (·.twin.on) fun _ => rfl,
    view (·.twin.primary) fun _ => rfl, fun k => ?_, fun p => ?_, view (·.library.holds) fun _ => rfl,
    view (·.library.openL) fun _ => rfl, view (·.library.openR) fun _ => rfl, view (·.changer.state) fun _ => rfl,
    view (·.changer.queue) fun _ => rfl, view (·.changer.out.map (·.command)) fun _ => rfl, sent.trans (by rw [query_frame]),
    ?_, ?_, ?_, ?_, ?_, rfl⟩
  · have stream : State.reset.stream i = Stream.blank :=
      (view (·.stream i) fun _ => rfl).trans (Vector.getElem_replicate ..)
    rw [stream]
    exact ⟨rfl, rfl, rfl, rfl⟩
  · have lane : State.reset.lane k = Lane.blank := (view (·.lane k) fun _ => rfl).trans (by cases k <;> rfl)
    rw [lane]
    exact ⟨rfl, rfl, rfl, rfl, rfl, rfl⟩
  · have loc : State.reset.loc p = LocRecord.unknown := (view (·.loc p) fun _ => rfl).trans (Vector.getElem_replicate ..)
    rw [loc]
    exact ⟨rfl, rfl⟩
  all_goals rw [unit]; rfl

/-! ## RESET PART (R187) -/

theorem outcomeWrite_burst (s : Part) (second : Bool) :
    writeBursts (fun _ => .outcome second) (s.areaBase + 0x80) (outcomeBytes s.unit.outcome) = [s.outcomeWrite second] :=
  outcome_burst _ _ _ (by unfold Part.areaBase; omega)

/-- The own accesses right after RESET PART: the one on the port, and the Outcome Word's write (R39, R187). -/
theorem afterResetPart_ownIssued (s : Part) (ws : List Waiting) (cl : List (Nat × Txn)) :
    (s.afterResetPart ws cl).ownIssued
      = (match s.bus.port with
        | some (.own a _) => [a]
        | _ => []) ++ [(s.afterResetPart ws cl).outcomeWrite false] := by
  have line : (s.afterResetPart ws cl).bus.ownLine = [(s.afterResetPart ws cl).outcomeWrite false] :=
    outcomeWrite_burst (s.afterResetPart ws cl) false
  rw [Part.ownIssued, line]
  change (match discardPort s.bus.port with
        | some (.own a _) => [a]
        | _ => []) ++ _ = _
  rcases s.bus.port with _ | ⟨_ | _⟩ <;> rfl

/-- The changer right after RESET PART with no command outstanding: OFFLINE, its QUERY sent (R143, R150). -/
theorem afterResetPart_changer (s : Part) (ws : List Waiting) (cl : List (Nat × Txn)) (out : s.changer.out = none) :
    (s.afterResetPart ws cl).changer = { s.changer with
      state := .offline, queue := [], out := some ⟨.query, none, none, false⟩, querySent := s.now
      discards := 0, strays := 0, lastFailure := none, sent := s.changer.sent ++ [Command.query.frame] } := by
  simp [Part.afterResetPart, Part.resetBlocks, Changer.afterReset, out]

/-- Settles O29: each block of `Part.afterResetPart`. -/
theorem resetPartResets : Obligations.ResetPartResets := by
  intro s h
  obtain ⟨ws, cl, e⟩ := resetPart_eq s.toPart
  have reset : s.toPart.resetCommand = s.afterResetPart ws cl := (resetCommand_taken h).trans e
  have view : ∀ {α : Type} (v : Part → α), (∀ p : Part, v p.blocks = v p) →
      v (report s.toPart s.toPart.resetCommand) = v (s.afterResetPart ws cl) :=
    fun v hv => (report_view v hv _ _).trans (congrArg v reset)
  refine ⟨_, event_next s _ h.1, rfl, view Part.pins fun _ => rfl, view Part.path fun _ => rfl, view Part.force fun _ => rfl, ?_,
    ?_, ?_, view (·.pool.geometry) fun _ => rfl, view (·.pool.buffers) fun _ => rfl, view (·.pool.free) fun _ => rfl,
    view (·.pool.waiters) fun _ => rfl, view Part.twin fun _ => rfl, fun k => ?_, view Part.span fun _ => rfl, fun p => ?_,
    view (·.library.holds) fun _ => rfl, view (·.library.openL) fun _ => rfl, view (·.library.openR) fun _ => rfl,
    view (·.unit.slot) fun _ => rfl, view (·.unit.outcome) fun _ => rfl, view (·.unit.mask) fun _ => rfl,
    view (·.unit.pulseMode) fun _ => rfl, fun out => ?_⟩
  · rw [report_outcomeWrite, reset]
    exact report_issued_of _ _ (afterResetPart_ownIssued s.toPart ws cl)
  · exact (view Part.streams fun _ => rfl).trans (reset_view Part.streams fun _ => rfl).symm
  · exact (view Part.assembly fun _ => rfl).trans (reset_view Part.assembly fun _ => rfl).symm
  · have blank : State.reset.lane k = Lane.blank := (reset_view (·.lane k) fun _ => rfl).trans (by cases k <;> rfl)
    have lane : (s.afterResetPart ws cl).lane k
        = (s.lane k).afterReset (s.present k) ((s.loc (bay k)).occ == .occupied) := by cases k <;> rfl
    refine (view (·.lane k) fun _ => rfl).trans (lane.trans ?_)
    rw [blank]
    simp [Lane.afterReset]
  · exact (view (·.loc p) fun _ => rfl).trans (Vector.getElem_map ..)
  · have changer := (view Part.changer fun _ => rfl).trans (afterResetPart_changer s.toPart ws cl out)
    exact ⟨congrArg Changer.state changer, congrArg Changer.queue changer, congrArg Changer.out changer,
      (congrArg Changer.sent changer).trans (by rw [query_frame])⟩

end Sys2Proof.Machine
end

section
/-! SUPPORT. Answers go back in the order of their tags (R22, R27, R182). Settles O7. -/

namespace Sys2Proof.Machine

/-- A transaction whose answer goes back as soon as no earlier one of its tag is unanswered (R22, R27). -/
def Waiting.due (w : Waiting) : Bool :=
  match w.wait with
  | .ready _ | .cond => true
  | _ => false

/-- Of transactions in order, those answered while the tags `blocked` have an earlier one unanswered. -/
def served : List Waiting → List (BitVec 4) → List Waiting
  | [], _ => []
  | x :: xs, blocked =>
    if x.txn.tag ∈ blocked ∨ x.due = false then served xs (x.txn.tag :: blocked) else x :: served xs blocked

/-- Of transactions in order, those left unanswered while the tags `blocked` have an earlier one unanswered. -/
def leftOver : List Waiting → List (BitVec 4) → List Waiting
  | [], _ => []
  | x :: xs, blocked =>
    if x.txn.tag ∈ blocked ∨ x.due = false then x :: leftOver xs (x.txn.tag :: blocked) else leftOver xs blocked

/-- The answer of a served transaction: the one decided for it, or that of a Condition Word read, which returns `bits` (R27). -/
def Waiting.answer (w : Waiting) (bits : BitVec 64) : Answer :=
  match w.wait with
  | .ready a => a
  | _ => ⟨w.txn.tag, true, none, leBytes 8 bits.toNat⟩

/-- The latched bits after transactions were served (R27, R182). -/
def latchedAfter (latched : BitVec 64) (ws : List Waiting) : BitVec 64 := if ws.any (fun x => x.wait == .cond) then 0 else latched

/-- The answers of transactions served in order: the first Condition Word read takes the latched bits (R27, R182). -/
def answersOf (level : BitVec 64) : BitVec 64 → List Waiting → List Answer
  | _, [] => []
  | latched, x :: xs => x.answer (latched ||| level) :: answersOf level (latchedAfter latched [x]) xs

/-! ## One pass -/

theorem latchedAfter_cons (latched : BitVec 64) (x : Waiting) (xs : List Waiting) :
    latchedAfter latched (x :: xs) = latchedAfter (latchedAfter latched [x]) xs := by
  by_cases h : x.wait = .cond <;> simp [latchedAfter, h]

/-- One pass serves, leaves and answers the transactions so. -/
theorem deliverFrom_eq (level : BitVec 64) (xs : List Waiting) (blocked : List (BitVec 4)) (latched : BitVec 64) :
    deliverFrom level xs blocked latched
      = (leftOver xs blocked, answersOf level latched (served xs blocked), latchedAfter latched (served xs blocked)) := by
  induction xs generalizing blocked latched with
  | nil => rfl
  | cons x xs ih =>
    by_cases stays : x.txn.tag ∈ blocked ∨ x.due = false
    · have kept : deliverFrom level (x :: xs) blocked latched
          = (x :: (deliverFrom level xs (x.txn.tag :: blocked) latched).1,
              (deliverFrom level xs (x.txn.tag :: blocked) latched).2) := by
        by_cases behind : x.txn.tag ∈ blocked
        · simp [deliverFrom, behind]
        · have open' := stays.resolve_left behind
          cases hw : x.wait with
          | ready | cond => simp [Waiting.due, hw] at open'
          | _ => simp [deliverFrom, behind, hw]
      rw [kept, ih, leftOver, served, if_pos stays, if_pos stays]
    · rw [leftOver, served, if_neg stays, if_neg stays]
      obtain ⟨free, due⟩ := not_or.mp stays
      cases hw : x.wait with
      | ready a => simp [deliverFrom, hw, ih, answersOf, latchedAfter, Waiting.answer, free]
      | cond => simp [deliverFrom, hw, ih, answersOf, latchedAfter, Waiting.answer, free]
      | _ => simp [Waiting.due, hw] at due

/-! ## What one pass serves -/

theorem served_sublist (xs : List Waiting) (blocked : List (BitVec 4)) : (served xs blocked).Sublist xs := by
  induction xs generalizing blocked with
  | nil => exact List.Sublist.slnil
  | cons x xs ih =>
    unfold served
    split
    · exact (ih _).cons x
    · exact (ih _).cons_cons x

/-- The transactions of a tag. -/
abbrev ofTag (g : BitVec 4) (xs : List Waiting) : List Waiting := xs.filter (fun w => w.txn.tag == g)

/-- Of a tag with none unanswered before, the longest due front is served; of any other none. -/
theorem served_ofTag (g : BitVec 4) (xs : List Waiting) (blocked : List (BitVec 4)) :
    ofTag g (served xs blocked) = if g ∈ blocked then [] else (ofTag g xs).takeWhile Waiting.due := by
  induction xs generalizing blocked with
  | nil => simp [served]
  | cons x xs ih =>
    unfold served
    by_cases mine : x.txn.tag = g
    · subst mine
      by_cases behind : x.txn.tag ∈ blocked
      · simp [behind, ih]
      · cases due : x.due <;> simp [behind, due, ih]
    · by_cases stays : x.txn.tag ∈ blocked ∨ x.due = false
      · simp [stays, ih, mine, Ne.symm mine]
      · simp [stays, ih, mine]

/-- Of a tag with none unanswered before, all behind the longest due front are left over; of any other all. -/
theorem leftOver_ofTag (g : BitVec 4) (xs : List Waiting) (blocked : List (BitVec 4)) :
    ofTag g (leftOver xs blocked) = if g ∈ blocked then ofTag g xs else (ofTag g xs).dropWhile Waiting.due := by
  induction xs generalizing blocked with
  | nil => simp [leftOver]
  | cons x xs ih =>
    unfold leftOver
    by_cases mine : x.txn.tag = g
    · subst mine
      by_cases behind : x.txn.tag ∈ blocked
      · simp [behind, ih]
      · cases due : x.due <;> simp [behind, due, ih]
    · by_cases stays : x.txn.tag ∈ blocked ∨ x.due = false
      · simp [stays, ih, mine, Ne.symm mine]
      · simp [stays, ih, mine]

theorem drop_takeWhile {α : Type} (p : α → Bool) (xs : List α) : xs.drop (xs.takeWhile p).length = xs.dropWhile p := by
  have split := List.takeWhile_append_dropWhile (p := p) (l := xs)
  calc xs.drop (xs.takeWhile p).length
      = (xs.takeWhile p ++ xs.dropWhile p).drop (xs.takeWhile p).length := by rw [split]
    _ = xs.dropWhile p := List.drop_left

/-! ## The answers -/

theorem answersOf_length (level latched : BitVec 64) (ws : List Waiting) : (answersOf level latched ws).length = ws.length := by
  induction ws generalizing latched with
  | nil => rfl
  | cons x xs ih => exact congrArg Nat.succ (ih _)

theorem answersOf_getElem? (level latched : BitVec 64) (ws : List Waiting) (n : Nat) (w : Waiting) (h : ws[n]? = some w) :
    (answersOf level latched ws)[n]? = some (w.answer (latchedAfter latched (ws.take n) ||| level)) := by
  induction ws generalizing latched n with
  | nil => cases h
  | cons x xs ih =>
    cases n with
    | zero => cases h; rfl
    | succ n => rw [List.take_succ_cons, latchedAfter_cons]; exact ih _ n h

/-- Settles O7: one pass serves `served`, leaves `leftOver`, and answers by `answersOf`. -/
theorem answersKeepTagOrder : Obligations.AnswersKeepTagOrder := by
  intro s _ mine due
  have pass := deliverFrom_eq s.levelBits s.bus.waiting [] s.unit.latched
  have left : s.deliver.bus.waiting = leftOver s.bus.waiting [] := congrArg (·.1) pass
  have answered : s.deliver.bus.answered = s.bus.answered ++ answersOf s.levelBits s.unit.latched (served s.bus.waiting []) :=
    congrArg (fun r : List Waiting × List Answer × BitVec 64 => s.bus.answered ++ r.2.1) pass
  have latched : s.deliver.unit.latched = latchedAfter s.unit.latched (served s.bus.waiting []) := congrArg (·.2.2) pass
  refine ⟨fun g => ?_, served s.bus.waiting [], answersOf s.levelBits s.unit.latched (served s.bus.waiting []),
    served_sublist _ _, fun g => ?_, answered, answersOf_length _ _ _, fun n w h => ?_, latched⟩
  · rw [left]
    exact (leftOver_ofTag g s.bus.waiting []).trans (drop_takeWhile Waiting.due (ofTag g s.bus.waiting)).symm
  · exact served_ofTag g s.bus.waiting []
  · rw [answersOf_getElem? _ _ _ n w h]
    have bits : latchedAfter s.unit.latched ((served s.bus.waiting []).take n) ||| s.levelBits
        = if ((served s.bus.waiting []).take n).any (fun x => x.wait == .cond) then s.levelBits else s.condition := by
      unfold latchedAfter Part.condition
      split
      · exact BitVec.zero_or
      · rfl
    rw [bits]
    rfl

end Sys2Proof.Machine
end

section
/-! SUPPORT. Transactions accepted and classified (R21 to R33). Settles O5, O8. -/

namespace Sys2Proof

/-! ## Strobes -/

theorem Txn.strobe_iff (t : Txn) (i : Nat) : t.strobe i = true ↔ i < 8 * t.beats ∧ t.strobes[i]? = some true := by
  unfold Txn.strobe
  rw [Bool.and_eq_true, decide_eq_true_iff, List.getD_eq_getElem?_getD]
  cases h : t.strobes[i]? <;> simp

theorem Txn.enables_iff (t : Txn) (off o : Nat) : t.enables off o = true ↔ t.enablesAt off o := by
  unfold Txn.enables
  rw [Bool.and_eq_true, decide_eq_true_iff, Txn.strobe_iff]
  constructor
  · rintro ⟨low, high, on⟩
    exact ⟨low, by omega, on⟩
  · rintro ⟨low, high, on⟩
    exact ⟨low, by omega, on⟩

theorem Txn.enablesAny_iff (t : Txn) (off o n : Nat) : t.enablesAny off o n = true ↔ t.enablesIn off o (o + n) := by
  unfold Txn.enablesAny
  simp only [List.any_eq_true, List.mem_range, Txn.enables_iff]
  constructor
  · rintro ⟨i, small, on⟩
    exact ⟨o + i, by omega, by omega, on⟩
  · rintro ⟨p, low, high, on⟩
    refine ⟨p - o, by omega, ?_⟩
    rwa [Nat.add_sub_cancel' low]

theorem Txn.splitWord_iff (t : Txn) (off : Nat) :
    t.splitWord off = true ↔ t.enablesIn off 0 8 ∧ ∃ o, o < 8 ∧ ¬ t.enablesAt off o := by
  unfold Txn.splitWord
  rw [Bool.and_eq_true, Txn.enablesAny_iff, Bool.not_eq_true', ← Bool.not_eq_true, List.all_eq_true]
  simp only [List.mem_range, Txn.enables_iff, not_forall, exists_prop]

theorem Txn.guarded_iff (t : Txn) (off : Nat) (inside : off + 8 * t.beats ≤ 4096) :
    t.guarded off = true ↔ t.enablesIn off 0x80 0x90 ∨ t.enablesIn off 0x100 0x108 ∨ t.enablesIn off 0x200 0x1000 := by
  have status : (List.range (8 * t.beats)).any (fun i => decide (0x200 ≤ off + i) && t.strobe i) = true
      ↔ t.enablesIn off 0x200 0x1000 := by
    simp only [List.any_eq_true, List.mem_range, Bool.and_eq_true, decide_eq_true_iff, Txn.strobe_iff]
    constructor
    · rintro ⟨i, small, low, _, on⟩
      exact ⟨off + i, low, by omega, by omega, by omega, by rwa [Nat.add_sub_cancel_left]⟩
    · rintro ⟨o, low, _, after, before, on⟩
      exact ⟨o - off, by omega, by omega, by omega, on⟩
  unfold Txn.guarded
  rw [Bool.or_eq_true, Bool.or_eq_true, Txn.enablesAny_iff, Txn.enablesAny_iff, status, or_assoc]

theorem Txn.any_strobe_iff (t : Txn) (off : Nat) :
    (List.range (8 * t.beats)).any t.strobe = true ↔ t.enablesIn off off (off + 8 * t.beats) := by
  simp only [List.any_eq_true, List.mem_range, Txn.strobe_iff]
  constructor
  · rintro ⟨i, small, _, on⟩
    exact ⟨off + i, by omega, by omega, by omega, by omega, by rwa [Nat.add_sub_cancel_left]⟩
  · rintro ⟨o, low, high, _, _, on⟩
    exact ⟨o - off, by omega, by omega, on⟩

theorem Txn.formed_inside (t : Txn) (h : t.formed = true) : t.addr.toNat % 4096 + 8 * t.beats ≤ 4096 := by
  simp only [Txn.formed, Bool.and_eq_true, decide_eq_true_iff] at h
  exact h.2

end Sys2Proof

namespace Sys2Proof.Machine

/-- Strobes whose enabled bytes form one run: those before it are off, those in it on, those behind it off (R29). -/
theorem getElem?_of_enabledRun (bs : List Bool) (lead n : Nat) (h : enabledRun bs = some (lead, n)) :
    1 ≤ n ∧ ∀ i, bs[i]? = some true ↔ lead ≤ i ∧ i < lead + n := by
  unfold enabledRun at h
  dsimp only at h
  split at h
  · cases h
  · rename_i whole
    obtain ⟨some', rest⟩ := not_or.mp whole
    simp only [Option.some.injEq, Prod.mk.injEq] at h
    obtain ⟨rfl, rfl⟩ := h
    refine ⟨by omega, fun i => ?_⟩
    have cut := List.takeWhile_append_dropWhile (p := fun b : Bool => !b) (l := bs)
    have cut' := List.takeWhile_append_dropWhile (p := fun b : Bool => b) (l := bs.dropWhile (! ·))
    rw [drop_takeWhile] at rest ⊢
    rw [drop_takeWhile] at rest
    generalize bs.dropWhile (! ·) = behind at *
    have off : ∀ b ∈ bs.takeWhile (! ·), b = false := fun b m => by simpa using List.mem_takeWhile_imp m
    have on : ∀ b ∈ behind.takeWhile (·), b = true := fun b m => by simpa using List.mem_takeWhile_imp m
    have past : ∀ b ∈ behind.dropWhile (·), b = false := fun b m => by
      have := fun c => rest (List.any_eq_true.mpr ⟨b, m, c⟩)
      simpa using this
    generalize bs.takeWhile (! ·) = before at *
    generalize behind.takeWhile (·) = run at *
    generalize behind.dropWhile (·) = last at *
    subst cut' cut
    rw [List.getElem?_append, List.getElem?_append]
    split
    · rename_i early
      refine ⟨fun e => ?_, fun e => by omega⟩
      exact absurd (off _ (List.mem_of_getElem? e)) (by decide)
    · split
      · rename_i late inRun
        refine ⟨fun _ => by omega, fun _ => ?_⟩
        rw [List.getElem?_eq_getElem inRun, on _ (List.getElem_mem inRun)]
      · refine ⟨fun e => ?_, fun e => by omega⟩
        exact absurd (past _ (List.mem_of_getElem? e)) (by decide)

theorem contiguous_of_not_oneRun (t : Txn) (off : Nat) (range : Range) (f : Nat → Treatment) (h : ¬ t.oneRun) :
    contiguous t off range f = .refuse .strobe range := by
  unfold contiguous
  cases e : enabledRun t.strobes with
  | none => rfl
  | some run =>
    obtain ⟨few, at'⟩ := getElem?_of_enabledRun t.strobes run.1 run.2 e
    exact absurd ⟨run.1, run.2, few, at'⟩ h

/-! ## Ranges -/

theorem roleRange_ne (r : Fin 12) : roleRange r ≠ .directive ∧ roleRange r ≠ .pool ∧ roleRange r ≠ .other := by
  revert r
  decide

/-- An address of the directive area has its offset from the area's base; no other address hits the area (R33, R40). -/
theorem rangeOf_directive (s : Part) (a : Nat) (h : (s.rangeOf a).1 = .directive) :
    within a s.areaBase 4096 = true ∧ (s.rangeOf a).2 = a - s.areaBase := by
  cases inArea : within a s.areaBase 4096 with
  | true => simp [Part.rangeOf, inArea]
  | false =>
    simp only [Part.rangeOf, inArea, Bool.false_eq_true, if_false] at h
    split at h
    · exact absurd h (roleRange_ne _).1
    · split at h <;> cases h

theorem area_offset (s : Part) (a : Nat) (h : within a s.areaBase 4096 = true) : a - s.areaBase = a % 4096 := by
  obtain ⟨low, high⟩ := of_decide_eq_true h
  simp only [Part.areaBase] at low high ⊢
  omega

theorem directive_inside (s : Part) (t : Txn) (formed : t.formed = true) (hit : s.rangeHit t = .directive) :
    s.offsetIn t + 8 * t.beats ≤ 4096 := by
  obtain ⟨inArea, off⟩ := rangeOf_directive s _ hit
  rw [Part.offsetIn, off, area_offset s _ inArea]
  exact t.formed_inside formed

theorem writesParameters_iff (s : Part) (t : Txn) (write : t.write = true) (hit : s.rangeHit t = .directive) :
    s.writesParameters t = true ↔ t.enablesIn (s.offsetIn t) 0x40 0x80 := by
  obtain ⟨inArea, off⟩ := rangeOf_directive s _ hit
  rw [Part.offsetIn, off, Part.writesParameters, write, inArea, Bool.true_and, Bool.true_and, Txn.enablesAny_iff]

theorem readingParameters_iff (s : Part) :
    s.readingParameters = true ↔ ∃ c lost, s.unit.slot = .busy c lost .writes ∨ s.unit.slot = .busy c lost .parameter := by
  unfold Part.readingParameters
  split
  · rename_i c lost h; exact ⟨fun _ => ⟨c, lost, .inl h⟩, fun _ => rfl⟩
  · rename_i c lost h; exact ⟨fun _ => ⟨c, lost, .inr h⟩, fun _ => rfl⟩
  · rename_i a b
    refine ⟨fun h => (nomatch h), ?_⟩
    rintro ⟨c, lost, h | h⟩
    · exact absurd h (a c lost)
    · exact absurd h (b c lost)

/-! ## Classification, case by case (R23) -/

theorem classify_unformed (s : Part) (t : Txn) (h : t.formed = false) : s.classify t = .refuse .burst (s.rangeHit t) := by
  simp [Part.classify, h]

section Formed
variable (s : Part) (t : Txn) (formed : t.formed = true)
include formed

theorem classify_directive_read (write : t.write = false) (hit : s.rangeHit t = .directive) :
    s.classify t = if s.offsetIn t ≤ 0x100 ∧ 0x100 < s.offsetIn t + 8 * t.beats then
      (if t.beats = 1 then .cond else .refuse .burst .directive) else .pass := by
  simp [Part.classify, formed, write, hit]

theorem classify_directive_write (write : t.write = true) (hit : s.rangeHit t = .directive) :
    s.classify t = if t.guarded (s.offsetIn t) then .refuse .guarded .directive
      else if t.splitWord (s.offsetIn t) then .refuse .strobe .directive
      else if s.readingParameters && s.writesParameters t then .hold else .pass := by
  simp [Part.classify, formed, write, hit]

theorem classify_pool (hit : s.rangeHit t = .pool) :
    s.classify t = if t.write = true ∧ (List.range (8 * t.beats)).any t.strobe then .refuse .guarded .pool else .pass := by
  cases write : t.write <;> simp [Part.classify, formed, write, hit]

theorem classify_other (hit : s.rangeHit t = .other) : s.classify t = .pass := by
  simp [Part.classify, formed, hit]

theorem classify_send_write (write : t.write = true) (k : LaneId) (hit : s.rangeHit t = .send k) :
    s.classify t = .refuse .direction (.send k) := by
  simp [Part.classify, formed, write, hit]

theorem classify_window_read (write : t.write = false) (hit : (∃ i, s.rangeHit t = .intake i) ∨ ∃ k, s.rangeHit t = .ret k) :
    s.classify t = .zeros := by
  rcases hit with ⟨i, hit⟩ | ⟨k, hit⟩ <;> simp [Part.classify, formed, write, hit]

theorem classify_window_write (write : t.write = true) (broken : ¬ t.oneRun)
    (hit : (∃ i, s.rangeHit t = .intake i) ∨ ∃ k, s.rangeHit t = .ret k) :
    s.classify t = .refuse .strobe (s.rangeHit t) := by
  rcases hit with ⟨i, hit⟩ | ⟨k, hit⟩ <;>
    simp [Part.classify, formed, write, hit, contiguous_of_not_oneRun _ _ _ _ broken]

theorem guards_directive_iff (hit : s.rangeHit t = .directive) :
    s.enablesGuarded t ↔ t.guarded (s.offsetIn t) = true := by
  rw [t.guarded_iff _ (directive_inside s t formed hit)]
  simp [Part.enablesGuarded, hit]

omit formed in
theorem guards_pool_iff (hit : s.rangeHit t = .pool) :
    s.enablesGuarded t ↔ (List.range (8 * t.beats)).any t.strobe = true := by
  rw [t.any_strobe_iff (s.offsetIn t)]
  simp [Part.enablesGuarded, hit]

omit formed in
theorem splits_iff (hit : s.rangeHit t = .directive) : s.splitsWord t ↔ t.splitWord (s.offsetIn t) = true := by
  rw [t.splitWord_iff]
  simp [Part.splitsWord, hit]

omit formed in
theorem meetsRead_iff (write : t.write = true) (hit : s.rangeHit t = .directive) :
    s.meetsRead t ↔ (s.readingParameters && s.writesParameters t) = true := by
  rw [Bool.and_eq_true, readingParameters_iff, writesParameters_iff s t write hit]
  simp [Part.meetsRead, hit, and_comm]

/-- A write that enables a guarded byte is refused with GUARD (R25). -/
theorem classify_guarded (write : t.write = true) (guarded : s.enablesGuarded t) :
    s.classify t = .refuse .guarded (s.rangeHit t) := by
  rcases id guarded with ⟨hit, _⟩ | ⟨hit, _⟩
  · rw [classify_pool s t formed hit, if_pos ⟨write, (guards_pool_iff s t hit).mp guarded⟩, hit]
  · rw [classify_directive_write s t formed write hit, if_pos ((guards_directive_iff s t formed hit).mp guarded), hit]

/-- A write of part of the Directive Word is refused with STROBE (R26). -/
theorem classify_split (write : t.write = true) (free : ¬ s.enablesGuarded t) (splits : s.splitsWord t) :
    s.classify t = .refuse .strobe (s.rangeHit t) := by
  have hit := splits.1
  rw [classify_directive_write s t formed write hit, if_neg ((guards_directive_iff s t formed hit).not.mp free),
    if_pos ((splits_iff s t hit).mp splits), hit]

/-- A write in the directive area that is neither refused nor held passes through; one that meets the parameter read is held (R28). -/
theorem classify_directive_written (write : t.write = true) (hit : s.rangeHit t = .directive) (free : ¬ s.enablesGuarded t)
    (whole : ¬ s.splitsWord t) [Decidable (s.meetsRead t)] : s.classify t = if s.meetsRead t then .hold else .pass := by
  rw [classify_directive_write s t formed write hit, if_neg ((guards_directive_iff s t formed hit).not.mp free),
    if_neg ((splits_iff s t hit).not.mp whole)]
  exact if_congr (meetsRead_iff s t write hit).symm rfl rfl

end Formed

/-! ## A transaction accepted (R22, R33) -/

/-- `s` with the transaction `t` accepted and then waiting for `w`, its hold timer started at `held`. -/
def Part.acceptedAs (s : Part) (t : Txn) (w : Wait) (held : Option Nat) : Part :=
  { s with bus := { s.bus with nextId := s.bus.nextId + 1, waiting := s.bus.waiting ++ [⟨s.bus.nextId, t, w, held⟩] } }

/-- `s` with a refusal of `t` counted and recorded (R33). -/
def Part.recorded (s : Part) (r : Reason) (range : Range) (t : Txn) : Part :=
  { s with path := { s.path with refusals := wrap32 (s.path.refusals + 1), lastRefusal := some ⟨r, range, t.tag, t.addr⟩ } }

/-- The FAULT that answers a refused transaction (R33). -/
def faultOf (t : Txn) (r : Reason) : Answer := ⟨t.tag, false, some r, if t.write then [] else zeros (8 * t.beats)⟩

section Accepted
variable (s : Part) (t : Txn) (w : Wait) (held : Option Nat)

@[simp] theorem acceptedAs_waiting : (s.acceptedAs t w held).bus.waiting = s.bus.waiting ++ [⟨s.bus.nextId, t, w, held⟩] := rfl
@[simp] theorem acceptedAs_answered : (s.acceptedAs t w held).bus.answered = s.bus.answered := rfl
@[simp] theorem acceptedAs_unit : (s.acceptedAs t w held).unit = s.unit := rfl
@[simp] theorem acceptedAs_path : (s.acceptedAs t w held).path = s.path := rfl
@[simp] theorem acceptedAs_blocks : (s.acceptedAs t w held).blocks = s.blocks := rfl
@[simp] theorem acceptedAs_quiet : (s.acceptedAs t w held).quiet = s.quiet := rfl
@[simp] theorem recorded_quiet (r : Reason) (range : Range) : (s.recorded r range t).quiet = s.quiet := rfl
@[simp] theorem recorded_bus (r : Reason) (range : Range) : (s.recorded r range t).bus = s.bus := rfl

theorem noConditionRead_acceptedAs (hw : w ≠ .cond) (h : s.noConditionRead) : (s.acceptedAs t w held).noConditionRead := by
  intro x m
  rcases List.mem_append.mp m with m | m
  · exact h x m
  · rw [List.mem_singleton] at m
    rwa [m]

variable (fresh : s.findTxn s.bus.nextId = none)
include fresh

theorem id_ne_nextId (x : Waiting) (m : x ∈ s.bus.waiting) : x.id ≠ s.bus.nextId := by
  simpa using List.find?_eq_none.mp fresh x m

/-- Changing the transaction accepted last changes no other. -/
theorem map_accepted (f : Waiting → Waiting) (x : Waiting) (mine : x.id = s.bus.nextId) :
    (s.bus.waiting ++ [x]).map (fun y => if y.id = s.bus.nextId then f y else y) = s.bus.waiting ++ [f x] := by
  have others : s.bus.waiting.map (fun y => if y.id = s.bus.nextId then f y else y) = s.bus.waiting :=
    (List.map_congr_left (g := id) fun y m => if_neg (id_ne_nextId s fresh y m)).trans (List.map_id _)
  rw [List.map_append, others, List.map_singleton, if_pos mine]

theorem accept_setWait : (s.accept t).2.setWait s.bus.nextId w = s.acceptedAs t w none :=
  congrArg (fun ws => { s with bus := { s.bus with nextId := s.bus.nextId + 1, waiting := ws } })
    (map_accepted s fresh (fun x => { x with wait := w }) ⟨s.bus.nextId, t, .line, none⟩ rfl)

theorem accept_hold : (s.accept t).2.hold s.bus.nextId w = s.acceptedAs t w (some s.now) :=
  congrArg (fun ws => { s with bus := { s.bus with nextId := s.bus.nextId + 1, waiting := ws } })
    (map_accepted s fresh (fun x => { x with wait := w, hold := x.hold <|> some s.now }) ⟨s.bus.nextId, t, .line, none⟩ rfl)

theorem accept_find : (s.accept t).2.findTxn s.bus.nextId = some ⟨s.bus.nextId, t, .line, none⟩ := by
  have none' : s.bus.waiting.find? (fun x => x.id == s.bus.nextId) = none := fresh
  simp [Part.accept, Part.findTxn, none']

theorem accept_okay (data : List Byte) :
    (s.accept t).2.okay s.bus.nextId data = s.acceptedAs t (.ready ⟨t.tag, true, none, data⟩) none := by
  unfold Part.okay
  rw [accept_find s t fresh]
  exact accept_setWait s t _ fresh

theorem accept_refuse (r : Reason) (range : Range) :
    (s.accept t).2.refuse s.bus.nextId r range = (s.recorded r range t).acceptedAs t (.ready (faultOf t r)) none := by
  unfold Part.refuse
  rw [accept_find s t fresh]
  exact congrArg (fun x : Part => { x with path := (s.recorded r range t).path }) (accept_setWait s t (.ready (faultOf t r)) fresh)

end Accepted

/-! ## A transaction's event -/

/-- The event of a transaction whose effect is `x`, with nothing for the lanes to settle. -/
theorem transaction_next (s : State) (t : Txn) (x : Part) (high : s.pins.resetLow = false)
    (effect : s.toPart.clientTransaction t = x) (quiet : x.quiet = true) :
    exec (.clientTransaction t) s = .next { s with toPart := report s.toPart x } :=
  laneEvent_quiet s _ x high effect quiet

section Alone
variable (old s : Part) (t : Txn) (held : Option Nat) (alone : s.bus.waiting = [])
include alone

/-- The only transaction accepted and decided is answered at the event (R22). -/
theorem report_ready (a : Answer) : (report old (s.acceptedAs t (.ready a) held)).bus.waiting = []
    ∧ (report old (s.acceptedAs t (.ready a) held)).bus.answered = s.bus.answered ++ [a]
    ∧ (report old (s.acceptedAs t (.ready a) held)).unit.latched = s.unit.latched := by
  simp [alone, deliverFrom]

/-- A Condition Word read accepted alone is answered at the event and clears the latched bits (R27, R182). -/
theorem report_cond : (report old (s.acceptedAs t .cond held)).bus.waiting = []
    ∧ (report old (s.acceptedAs t .cond held)).bus.answered
        = s.bus.answered ++ [⟨t.tag, true, none, leBytes 8 s.condition.toNat⟩]
    ∧ (report old (s.acceptedAs t .cond held)).unit.latched = 0 := by
  have level : (s.acceptedAs t .cond held).levelBits = s.levelBits := rfl
  simp [alone, deliverFrom, level, Part.condition]

/-- A transaction accepted alone that waits on is the only one unanswered. -/
theorem report_waits (w : Wait) (waits : Waiting.due ⟨s.bus.nextId, t, w, held⟩ = false) :
    (report old (s.acceptedAs t w held)).bus.waiting = [⟨s.bus.nextId, t, w, held⟩]
    ∧ (report old (s.acceptedAs t w held)).bus.answered = s.bus.answered
    ∧ (report old (s.acceptedAs t w held)).unit.latched = s.unit.latched := by
  simp [alone, deliverFrom_eq, served, leftOver, waits, answersOf, latchedAfter]

end Alone

/-- Settles O8. -/
theorem conditionReadClears : Obligations.ConditionReadClears := by
  intro s t high cond alone quiet
  have fresh : s.findTxn s.bus.nextId = none := by simp [Part.findTxn, alone]
  have effect : (if s.toPart.classify t == .cond then s.toPart.clientTransaction t else s.toPart) = s.toPart.acceptedAs t .cond none := by
    rw [cond, if_pos (by rfl), Part.clientTransaction, cond]
    exact accept_setWait s.toPart t .cond fresh
  obtain ⟨waiting, answered, latched⟩ := report_cond s.toPart s.toPart t none alone
  exact ⟨_, laneEvent_quiet s _ _ high effect quiet, rfl, report_blocks _ _, latched, waiting, answered⟩

end Sys2Proof.Machine
end

section
/-! SUPPORT. What the part answers by itself as it accepts a transaction (R23). Settles O5. -/

namespace Sys2Proof.Machine

/-- `s` after a refusal of `t`: counted, recorded, and with GUARD latched for a guarded byte (R25, R33). -/
def Part.refusing (s : Part) (r : Reason) (range : Range) (t : Txn) : Part :=
  if r = .guarded then (s.recorded r range t).latch .guarded else s.recorded r range t

section Refusing
variable (s : Part) (r : Reason) (range : Range) (t : Txn)

@[simp] theorem refusing_bus : (s.refusing r range t).bus = s.bus := by unfold Part.refusing; split <;> rfl
@[simp] theorem refusing_quiet : (s.refusing r range t).quiet = s.quiet := by unfold Part.refusing; split <;> rfl
@[simp] theorem refusing_blocks : (s.refusing r range t).blocks = (s.recorded r range t).blocks := by
  unfold Part.refusing; split <;> rfl
theorem refusing_latched :
    (s.refusing r range t).unit.latched = s.unit.latched ||| if r = .guarded then 32#64 else 0#64 := by
  unfold Part.refusing
  split
  · rfl
  · exact BitVec.or_zero.symm

theorem clientTransaction_refused (fresh : s.findTxn s.bus.nextId = none) (h : s.classify t = .refuse r range) :
    s.clientTransaction t = (s.refusing r range t).acceptedAs t (.ready (faultOf t r)) none := by
  have refused := accept_refuse s t fresh r range
  unfold Part.clientTransaction
  rw [h]
  cases r with
  | guarded => exact congrArg (·.latch .guarded) refused
  | _ => exact refused

end Refusing

theorem clientTransaction_zeros (s : Part) (t : Txn) (fresh : s.findTxn s.bus.nextId = none) (h : s.classify t = .zeros) :
    s.clientTransaction t = s.acceptedAs t (.ready ⟨t.tag, true, none, zeros (8 * t.beats)⟩) none := by
  unfold Part.clientTransaction
  rw [h]
  exact accept_okay s t fresh _

theorem clientTransaction_hold (s : Part) (t : Txn) (fresh : s.findTxn s.bus.nextId = none) (h : s.classify t = .hold) :
    s.clientTransaction t = s.acceptedAs t .param (some s.now) := by
  unfold Part.clientTransaction
  rw [h]
  exact accept_hold s t _ fresh

/-- Behind a busy port the end of an event leaves the client line. -/
theorem report_clientLine (old s : Part) (busy : s.bus.port ≠ none) : (report old s).bus.clientLine = s.bus.clientLine := by
  have same : ((Part.writeSections old s).deliver).bus.port = s.bus.port := writeSections_port old s
  have stays : (Part.writeSections old s).deliver.grant = (Part.writeSections old s).deliver := by
    rcases grant_cases (Part.writeSections old s).deliver with ⟨e, _⟩ | ⟨_, _, _, free, _⟩ | ⟨_, _, free, _⟩
    · exact e
    · exact absurd (same.symm.trans free) busy
    · exact absurd (same.symm.trans free) busy
  have lines : (report old s).bus.clientLine = (Part.writeSections old s).deliver.grant.bus.clientLine := rfl
  rw [lines, stays]
  exact writeSections_clientLine old s

section Decided
variable (s : State) (t : Txn) (high : s.pins.resetLow = false) (fresh : s.findTxn s.bus.nextId = none)
  (quiet : s.quiet = true)
include high fresh quiet

/-- A refused transaction is answered FAULT, counted and recorded, and nothing else changes (R33). -/
theorem refused_event (r : Reason) (h : s.classify t = .refuse r (s.rangeHit t)) :
    ∃ u : State, exec (.clientTransaction t) s = .next u ∧ u.pending = s.pending
      ∧ u.path = { s.path with
          refusals := (s.path.refusals + 1) % 2 ^ 32
          lastRefusal := some ⟨r, s.rangeHit t, t.tag, t.addr⟩ }
      ∧ u.blocks = ({ s.toPart with path := u.path } : Part).blocks
      ∧ (s.noConditionRead → u.unit.latched = s.unit.latched ||| if r = .guarded then 32#64 else 0#64)
      ∧ (s.bus.waiting = [] → u.bus.waiting = [] ∧ u.bus.answered = s.bus.answered
          ++ [⟨t.tag, false, some r, if t.write then [] else zeros (8 * t.beats)⟩]) := by
  have effect := clientTransaction_refused s.toPart r (s.rangeHit t) t fresh h
  have next := transaction_next s t _ high effect (by simpa using quiet)
  generalize hx : s.toPart.refusing r (s.rangeHit t) t = x at next
  have bus : x.bus = s.bus := by rw [← hx, refusing_bus]
  have blocks : (report s.toPart (x.acceptedAs t (.ready (faultOf t r)) none)).blocks = (s.toPart.recorded r (s.rangeHit t) t).blocks := by
    rw [report_blocks, acceptedAs_blocks, ← hx, refusing_blocks]
  have path := congrArg Part.path blocks
  refine ⟨_, next, rfl, path, ?_, fun calm => ?_, fun alone => ?_⟩
  · exact blocks.trans (congrArg (fun p => ({ s.toPart with path := p } : Part).blocks) path.symm)
  · have calm' : x.noConditionRead := by rwa [Part.noConditionRead, bus]
    rw [report_keeps_latched _ _ (noConditionRead_acceptedAs x t _ none (by simp) calm'), acceptedAs_unit, ← hx, refusing_latched]
  · obtain ⟨waiting, answered, _⟩ := report_ready s.toPart x t none (by rw [bus, alone]) (faultOf t r)
    exact ⟨waiting, by rw [answered, bus]; rfl⟩

/-- A read of an intake or return window is answered with zeros and changes nothing (R23). -/
theorem zeros_event (h : s.classify t = .zeros) :
    ∃ u : State, exec (.clientTransaction t) s = .next u ∧ u.pending = s.pending ∧ u.blocks = s.blocks
      ∧ (s.noConditionRead → u.unit.latched = s.unit.latched)
      ∧ (s.bus.waiting = [] → u.bus.waiting = [] ∧ u.bus.answered = s.bus.answered
          ++ [⟨t.tag, true, none, zeros (8 * t.beats)⟩]) := by
  have effect := clientTransaction_zeros s.toPart t fresh h
  refine ⟨_, transaction_next s t _ high effect quiet, rfl, report_blocks _ _, fun calm => ?_, fun alone => ?_⟩
  · exact report_keeps_latched _ _ (noConditionRead_acceptedAs s.toPart t _ none (by simp) calm)
  · obtain ⟨waiting, answered, _⟩ := report_ready s.toPart s.toPart t none alone ⟨t.tag, true, none, zeros (8 * t.beats)⟩
    exact ⟨waiting, answered⟩

/-- A write that meets the parameter read is held and changes nothing (R22, R28). -/
theorem held_event (h : s.classify t = .hold) :
    ∃ u : State, exec (.clientTransaction t) s = .next u ∧ u.pending = s.pending ∧ u.blocks = s.blocks
      ∧ (s.noConditionRead → u.unit.latched = s.unit.latched)
      ∧ (s.bus.port ≠ none → u.bus.clientLine = s.bus.clientLine)
      ∧ (s.bus.waiting = [] → u.bus.waiting = [⟨s.bus.nextId, t, .param, some s.now⟩] ∧ u.bus.answered = s.bus.answered) := by
  have effect := clientTransaction_hold s.toPart t fresh h
  have next := transaction_next s t _ high effect quiet
  have lines := report_clientLine s.toPart (s.toPart.acceptedAs t .param (some s.now))
  refine ⟨_, next, rfl, report_blocks _ _, fun calm => ?_, lines, fun alone => ?_⟩
  · exact report_keeps_latched _ _ (noConditionRead_acceptedAs s.toPart t _ _ (by simp) calm)
  · obtain ⟨waiting, answered, _⟩ := report_waits s.toPart s.toPart t (some s.now) alone .param rfl
    exact ⟨waiting, answered⟩

end Decided

/-- Settles O5: each form, range and direction has one treatment (`classify_*`), and each treatment one event. -/
theorem malformedBurstRefused : Obligations.MalformedBurstRefused := by
  intro s t high fresh quiet
  refine ⟨fun unformed => ?_, fun formed read => ⟨fun hit low spans many => ?_, fun window => ?_⟩,
    fun formed write => ⟨fun guarded => ?_, fun free splits => ?_, fun window broken => ?_, fun k hit => ?_, fun free whole meets => ?_⟩⟩
  · exact refused_event s t high fresh quiet .burst (classify_unformed s.toPart t unformed)
  · refine refused_event s t high fresh quiet .burst ?_
    rw [classify_directive_read s.toPart t formed read hit, if_pos ⟨low, spans⟩, if_neg many, hit]
  · exact zeros_event s t high fresh quiet (classify_window_read s.toPart t formed read window)
  · exact refused_event s t high fresh quiet .guarded (classify_guarded s.toPart t formed write guarded)
  · exact refused_event s t high fresh quiet .strobe (classify_split s.toPart t formed write free splits)
  · exact refused_event s t high fresh quiet .strobe (classify_window_write s.toPart t formed write broken window)
  · exact refused_event s t high fresh quiet .direction ((classify_send_write s.toPart t formed write k hit).trans (by rw [hit]))
  · classical
    refine held_event s t high fresh quiet ?_
    rw [classify_directive_written s.toPart t formed write meets.1 free whole, if_pos meets]

end Sys2Proof.Machine
end

section
/-! SUPPORT. Intake writes taken, refused, held and stalled (R29, R30, R47, R48). Settles O11, O12. -/

namespace Sys2Proof.Machine

/-! ## The stream's judgement (R47) -/

section Judge
variable (x : Stream) (size off c : Nat)

theorem judge_noRecord (state : x.state ≠ .record) : x.judge size off c = .refuse .noRecord := by simp [Stream.judge, state]

variable (state : x.state = .record)
include state

theorem judge_sequence (away : off ≠ x.taken % size) : x.judge size off c = .refuse .sequence := by
  simp [Stream.judge, state, away]

variable (place : off = x.taken % size)
include place

theorem judge_overrun (past : (x.declared ≠ 0 ∧ x.declared < x.recTaken + c) ∨ 2 ^ 36 - 1 < x.recTaken + c) :
    x.judge size off c = .refuse .overrun := by
  unfold Stream.judge
  rw [if_neg (by simpa using state), if_neg (by simpa using place)]
  exact if_pos past

variable (declared : x.declared ≠ 0 → x.recTaken + c ≤ x.declared) (short : x.recTaken + c ≤ 2 ^ 36 - 1)
include declared short

theorem judge_room : x.judge size off c = if 256 < x.intake.length + c then .hold else .take := by
  unfold Stream.judge
  rw [if_neg (by simpa using state), if_neg (by simpa using place)]
  refine if_neg (not_or.mpr ⟨fun past => ?_, Nat.not_lt.mpr short⟩)
  exact absurd past.2 (Nat.not_lt.mpr (declared past.1))

end Judge

/-! ## An intake write accepted alone -/

section Intake
variable (s : Part) (t : Txn) (i : Fin 8) (off : Nat) (kind : s.classify t = .intake i off) (alone : s.bus.waiting = [])
include alone

theorem fresh_of_alone : s.findTxn s.bus.nextId = none := by simp [Part.findTxn, alone]

theorem heldIntake_accept : ((s.accept t).2.heldIntake i).isEmpty = true := by simp [Part.heldIntake, Part.accept, alone]

include kind

omit alone in
theorem clientTransaction_intake : s.clientTransaction t = (s.accept t).2.intakeWrite i s.bus.nextId t off := by
  unfold Part.clientTransaction
  rw [kind]
  rfl

theorem intake_taken (verdict : (s.stream i).judge (s.intakeSize i) off (enabledBytes t).length = .take) :
    s.clientTransaction t = (s.takeIntake i (enabledBytes t)).acceptedAs t (.ready ⟨t.tag, true, none, []⟩) none := by
  have verdict' : ((s.accept t).2.stream i).judge ((s.accept t).2.intakeSize i) off (enabledBytes t).length = .take := verdict
  rw [clientTransaction_intake s t i off kind, Part.intakeWrite, if_pos (heldIntake_accept s t i alone), verdict']
  exact accept_okay (s.takeIntake i (enabledBytes t)) t (fresh_of_alone s alone) []

theorem intake_refused (r : Reason) (verdict : (s.stream i).judge (s.intakeSize i) off (enabledBytes t).length = .refuse r) :
    s.clientTransaction t = (s.recorded r (.intake i) t).acceptedAs t (.ready (faultOf t r)) none := by
  have verdict' : ((s.accept t).2.stream i).judge ((s.accept t).2.intakeSize i) off (enabledBytes t).length = .refuse r := verdict
  rw [clientTransaction_intake s t i off kind, Part.intakeWrite, if_pos (heldIntake_accept s t i alone), verdict']
  exact accept_refuse s t (fresh_of_alone s alone) r (.intake i)

theorem intake_held (verdict : (s.stream i).judge (s.intakeSize i) off (enabledBytes t).length = .hold) :
    s.clientTransaction t = s.acceptedAs t (.intake i s.holdPeriod off) (some s.now) := by
  have verdict' : ((s.accept t).2.stream i).judge ((s.accept t).2.intakeSize i) off (enabledBytes t).length = .hold := verdict
  rw [clientTransaction_intake s t i off kind, Part.intakeWrite, if_pos (heldIntake_accept s t i alone), verdict']
  exact accept_hold s t _ (fresh_of_alone s alone)

end Intake

/-- The event of an intake write whose effect is `x`. -/
theorem intakeWrite_next (s : State) (t : Txn) (i : Fin 8) (off : Nat) (x : Part) (high : s.pins.resetLow = false)
    (kind : s.classify t = .intake i off) (effect : s.toPart.clientTransaction t = x) (quiet : x.quiet = true) :
    exec (.intakeWrite t) s = .next { s with toPart := report s.toPart x } := by
  refine laneEvent_quiet s _ x high ?_ quiet
  show (if _ then _ else _) = x
  rw [kind]
  exact effect

/-- A transaction treated as an intake write is a write. -/
theorem write_of_intake (s : Part) (t : Txn) (i : Fin 8) (off : Nat) (kind : s.classify t = .intake i off) : t.write = true := by
  cases write : t.write with
  | true => rfl
  | false =>
    simp only [Part.classify, write] at kind
    split at kind
    · cases kind
    · split at kind
      · split at kind
        · split at kind <;> cases kind
        · cases kind
      all_goals simp_all

/-- Settles O11: the stream's verdict (`judge_*`) decides what the event leaves. -/
theorem intakeWriteTakenOrRefused : Obligations.IntakeWriteTakenOrRefused := by
  refine ⟨fun s t i off high kind alone state place declared short room quiet => ?_,
    fun s t i off r high kind alone quiet why => ?_,
    fun s t i off high kind alone state place declared short full quiet => ?_⟩
  · have verdict := judge_room (s.stream i) (s.intakeSize i) off _ state place declared short
    rw [if_neg (Nat.not_lt.mpr room)] at verdict
    have next := intakeWrite_next s t i off _ high kind (intake_taken s.toPart t i off kind alone verdict) quiet
    obtain ⟨waiting, answered, latched⟩ := report_ready s.toPart (s.toPart.takeIntake i (enabledBytes t)) t none alone
      ⟨t.tag, true, none, []⟩
    refine ⟨_, next, rfl, ?_, latched, waiting, answered⟩
    rw [report_blocks, acceptedAs_blocks]
    refine congrArg (fun y => (s.setStream i y).blocks) ?_
    have idle : (s.stream i).idle.map (fun _ => s.timer s.idlePeriod)
        = if (s.stream i).idle = none then none else some ⟨s.now, 100000 * s.force.idleTime⟩ := by
      cases (s.stream i).idle <;> rfl
    dsimp only
    rw [idle, state]
  · have verdict : (s.stream i).judge (s.intakeSize i) off (enabledBytes t).length = .refuse r := by
      rcases why with ⟨state, rfl⟩ | ⟨state, away, rfl⟩ | ⟨state, place, rfl, past⟩
      · exact judge_noRecord _ _ _ _ state
      · exact judge_sequence _ _ _ _ state away
      · exact judge_overrun _ _ _ _ state place past
    have next := intakeWrite_next s t i off _ high kind (intake_refused s.toPart t i off kind alone r verdict) quiet
    obtain ⟨waiting, answered, latched⟩ := report_ready s.toPart (s.toPart.recorded r (.intake i) t) t none alone (faultOf t r)
    refine ⟨_, next, rfl, report_blocks _ _, latched, waiting, ?_⟩
    rw [answered, faultOf, write_of_intake s.toPart t i off kind]
    rfl
  · have verdict := judge_room (s.stream i) (s.intakeSize i) off _ state place declared short
    rw [if_pos full] at verdict
    have next := intakeWrite_next s t i off _ high kind (intake_held s.toPart t i off kind alone verdict) quiet
    obtain ⟨waiting, answered, latched⟩ := report_waits s.toPart s.toPart t (some s.now) alone (.intake i s.holdPeriod off) rfl
    exact ⟨_, next, rfl, report_blocks _ _, latched, waiting, answered⟩

/-! ## The hold limit (R30) -/

/-- The hold timer of the only unanswered transaction runs out: STALL. -/
theorem holdTimer_stalls (s : Part) (id : Nat) (t : Txn) (i : Fin 8) (limit off start : Nat)
    (alone : s.bus.waiting = [⟨id, t, .intake i limit off, some start⟩]) (past : start + limit ≤ s.now) :
    s.holdTimer 0 = ((({ s with bus := { s.bus with waiting := [⟨id, t, .ready (faultOf t .stall), some start⟩] } }).recorded .stall
      (.intake i) t).latch .streamStall).touch (.stream i) := by
  have refused : s.refuse id .stall (.intake i) = ({ s with bus := { s.bus with
      waiting := [⟨id, t, .ready (faultOf t .stall), some start⟩] } }).recorded .stall (.intake i) t := by
    simp [Part.refuse, Part.findTxn, Part.setWait, alone, Part.recorded, faultOf]
  have due : s.heldFor ⟨id, t, .intake i limit off, some start⟩ limit = true := decide_eq_true past
  simp only [Part.holdTimer, alone, List.filterMap_cons, List.filterMap_nil, List.getElem?_cons_zero, due, if_true, refused]
  rfl

/-- Settles O12. -/
theorem holdLimitStalls : Obligations.HoldLimitStalls := by
  intro s id t i limit off start high alone write past
  have effect := holdTimer_stalls s.toPart id t i limit off start alone past
  have next := event_next s (fun p => p.holdTimer 0) high
  simp only [effect] at next
  refine ⟨_, next, rfl, report_blocks _ _, ?_, ?_, ?_⟩
  · simp [deliverFrom, Part.recorded, Cond.bit]
  · simp [deliverFrom, Part.recorded]
  · simp [deliverFrom, Part.recorded, faultOf, write]

end Sys2Proof.Machine
end

section
/-! SUPPORT. Answers on the memory-side port and directive writes taken (R24, R38, R178 to R180). Settles O24, O25. -/

namespace Sys2Proof.Machine

/-! ## The answer to an own access goes to its owner (R38) -/

section OwnAnswered
variable {s : Part} {a : OwnAccess} {p : OwnKind → Bool} (port : s.bus.port = some (.own a false))
  (ok : Bool) (data : List Byte)
include port

theorem ownAnswered_outcome {second : Bool} (kind : a.kind = .outcome second) (hp : p (.outcome second) = true) :
    s.ownAnswered p ok data = s.freePort.outcomeAnswered second := by simp [Part.ownAnswered, port, kind, hp]

theorem ownAnswered_parameter (kind : a.kind = .parameter) (hp : p .parameter = true) :
    s.ownAnswered p ok data = s.freePort.parameterAnswered ok data := by simp [Part.ownAnswered, port, kind, hp]

theorem ownAnswered_status {x : Section} {last : Bool} (kind : a.kind = .status x last) (hp : p (.status x last) = true) :
    s.ownAnswered p ok data = s.freePort.statusAnswered x ok last := by simp [Part.ownAnswered, port, kind, hp]

theorem ownAnswered_spanWrite {last : Bool} (kind : a.kind = .spanWrite last) (hp : p (.spanWrite last) = true) :
    s.ownAnswered p ok data = s.freePort.spanWriteAnswered ok last := by simp [Part.ownAnswered, port, kind, hp]

theorem ownAnswered_spanRead {last : Bool} (kind : a.kind = .spanRead last) (hp : p (.spanRead last) = true) :
    s.ownAnswered p ok data = s.freePort.spanReadAnswered ok last a.beats data := by simp [Part.ownAnswered, port, kind, hp]

end OwnAnswered

/-- Settles O25. -/
theorem outcomeAnsweredReadies : Obligations.OutcomeAnsweredReadies := by
  intro s a c lost second ok high port kind noRead
  have answered := ownAnswered_outcome (p := fun x => match x with | .outcome _ => true | _ => false) port ok [] kind rfl
  obtain ⟨t, next, pending, blocks, _, _, latched⟩ := event_blocks s
    (fun p => p.ownAnswered (fun x => match x with | .outcome _ => true | _ => false) ok []) high
  rw [answered] at blocks latched
  refine ⟨fun slot => ?_, fun first slot => ?_⟩
  · have readies : s.freePort.outcomeAnswered second = (s.freePort.enforce.setDirSlot .ready).latch .directiveDone := by
      have slot' : s.freePort.unit.slot = .busy c lost (if second then .second else .outcome) := slot
      cases second <;> simp [Part.outcomeAnswered, slot']
    rw [readies] at blocks latched
    exact ⟨t, next, pending, blocks, latched noRead⟩
  · have waits : s.freePort.outcomeAnswered second = s.freePort.enforce := by
      have slot' : s.freePort.unit.slot = .busy c lost .second := slot
      simp [Part.outcomeAnswered, slot', first]
    rw [waits] at blocks latched
    exact ⟨t, next, pending, blocks, latched noRead⟩

/-! ## Directive writes, case by case (R178 to R180) -/

theorem writeOutcome_eq (s : Part) (second : Bool) : s.writeOutcome second = s.pushOwn [s.outcomeWrite second] :=
  congrArg (Part.pushOwn s) (outcomeWrite_burst s second)

theorem answerOnly_eq (s : Part) (code : Nat) (r : Result) (d : Nat) :
    s.answerOnly code r d = (s.composed code r d).pushOwn [(s.composed code r d).outcomeWrite false] :=
  writeOutcome_eq (s.composed code r d) false

section Ready
variable {s : Part} (ready : s.unit.slot = .ready)
include ready

theorem take_ready_empty : s.takeDirective 0 = s := by simp [Part.takeDirective, ready]

theorem take_ready_confirm : s.takeDirective 0xC9 = s.answerOnly 0xC9 .sequence 0 := by simp [Part.takeDirective, ready]

theorem take_ready_unknown (code : Nat) (empty : code ≠ 0) (confirm : code ≠ 0xC9) (free : code ∉ guardedTable)
    (unknown : code ∉ directiveTable) : s.takeDirective code = s.answerOnly code .unknownCode 0 := by
  simp [Part.takeDirective, ready, empty, confirm, free, unknown]

theorem take_ready_guarded (code : Nat) (empty : code ≠ 0) (confirm : code ≠ 0xC9) (guarded : code ∈ guardedTable) :
    s.takeDirective code = s.enterPending code := by
  simp [Part.takeDirective, ready, empty, confirm, guarded]

theorem take_ready_read (code : Nat) (empty : code ≠ 0) (confirm : code ≠ 0xC9) (free : code ∉ guardedTable)
    (known : code ∈ directiveTable) : s.takeDirective code = s.readBlock code false := by
  simp [Part.takeDirective, ready, empty, confirm, free, known]

end Ready

section Pending
variable {s : Part} {p : Nat} (pending : s.unit.slot = .pending p)
include pending

theorem take_pending_confirm : s.takeDirective 0xC9 = s.confirmed p := by simp [Part.takeDirective, pending]

theorem take_pending_other (code : Nat) (other : code ≠ 0xC9) : s.takeDirective code = s.answerOnly p .sequence code := by
  simp [Part.takeDirective, pending, other]

theorem resetCommand_pending (reset : p = 0x7F) : s.resetCommand = s.takeDirective 0xC9 := by
  simp [Part.resetCommand, take_pending_confirm pending, Part.confirmed, pending, reset]

end Pending

/-- The guarded codes stand in the table of the directives. -/
theorem guarded_known (code : Nat) (h : code ∈ guardedTable) : code ∈ directiveTable :=
  (by decide : ∀ c ∈ guardedTable, c ∈ directiveTable) code h

theorem known_ne (code : Nat) (h : code ∈ directiveTable) : code ≠ 0 ∧ code ≠ 0xC9 :=
  (by decide : ∀ c ∈ directiveTable, c ≠ 0 ∧ c ≠ 0xC9) code h

section Busy
variable {s : Part} {c : Nat} {lost : Bool} {st : Stage} (busy : s.unit.slot = .busy c lost st)
include busy

theorem take_busy (code : Nat) : s.takeDirective code = s.loseDirective := by simp [Part.takeDirective, busy]

/-- With the outcome on its way without the LOST flag, a second Outcome Word write follows. -/
theorem lose_again (again : st = .outcome ∧ lost = false) :
    s.loseDirective = ((({ s.latch .directiveLost with unit := { (s.latch .directiveLost).unit with
      slot := .busy c true .second, outcome := { s.unit.outcome with lost := true } } }).writeOutcome true).touch .unit) := by
  obtain ⟨rfl, rfl⟩ := again
  simp only [Part.loseDirective, busy]
  rfl

theorem lose_once (once : ¬ (st = .outcome ∧ lost = false)) :
    s.loseDirective = (s.latch .directiveLost).setDirSlot (.busy c true st) := by
  simp only [Part.loseDirective, busy]
  split
  · exact absurd ⟨rfl, rfl⟩ once
  · rfl

end Busy

/-! ## Parameter Block writes that wait for memory (R179) -/

theorem rangeHit_directive_iff (s : Part) (t : Txn) : s.rangeHit t = .directive ↔ within t.addr.toNat s.areaBase 4096 = true :=
  ⟨fun hit => (rangeOf_directive s _ hit).1, fun inArea => by simp [Part.rangeHit, Part.rangeOf, inArea]⟩

/-- A write of Parameter Block bytes that was made in PENDING and that memory has not answered (R179). -/
def Part.madeInPending (s : Part) (w : Waiting) : Prop :=
  w.wait = .line ∧ s.unit.pendingFrom ≤ w.id ∧ s.rangeHit w.txn = .directive ∧ w.txn.write = true
    ∧ w.txn.enablesIn (s.offsetIn w.txn) 0x40 0x80

theorem madeInPending_iff (s : Part) (w : Waiting) :
    (w.wait == .line && decide (s.unit.pendingFrom ≤ w.id) && s.writesParameters w.txn) = true ↔ s.madeInPending w := by
  rw [Bool.and_eq_true, Bool.and_eq_true, beq_iff_eq, decide_eq_true_iff, and_assoc, Part.madeInPending]
  refine and_congr_right fun _ => and_congr_right fun _ => ?_
  by_cases fits : s.rangeHit w.txn = .directive ∧ w.txn.write = true
  · rw [writesParameters_iff s w.txn fits.2 fits.1]
    simp [fits.1, fits.2]
  · refine iff_of_false (fun h => fits ?_) (fun h => fits ⟨h.1, h.2.1⟩)
    simp only [Part.writesParameters, Bool.and_eq_true] at h
    exact ⟨(rangeHit_directive_iff s w.txn).mpr h.1.2, h.1.1⟩

theorem writesUnanswered_iff (s : Part) : s.writesUnanswered = true ↔ ∃ w ∈ s.bus.waiting, s.madeInPending w := by
  simp only [Part.writesUnanswered, List.any_eq_true, madeInPending_iff]

/-! ## Memory's answer to a passed-through transaction -/

/-- `s` with memory's answer to the transaction `id` taken, before a parameter read that waited for it is made (R24, R26). -/
def Part.memoryAnswered (s : Part) (id : Nat) (t : Txn) (ok : Bool) (data : List Byte) : Part :=
  if ok then (s.freePort.okay id (if t.write then [] else s.freePort.passedData t data)).snoop t else s.freePort.memoryFault id

theorem passedAnswer_client {s : Part} {id : Nat} {t : Txn} (port : s.bus.port = some (.client id t)) (ok : Bool) (data : List Byte) :
    s.passedAnswer ok data = (s.memoryAnswered id t ok data).writesAnswered := by
  simp [Part.passedAnswer, port, Part.memoryAnswered]

/-- Setting what an absent transaction waits for changes nothing. -/
theorem setWait_absent (s : Part) (id : Nat) (w : Wait) (h : s.findTxn id = none) : s.setWait id w = s := by
  have others : s.bus.waiting.map (fun x => if x.id = id then { x with wait := w } else x) = s.bus.waiting :=
    (List.map_congr_left (g := fun x => x) fun x m => if_neg (by simpa using List.find?_eq_none.mp h x m)).trans (List.map_id' _)
  exact congrArg (fun ws => { s with bus := { s.bus with waiting := ws } }) others

theorem okay_decides (s : Part) (id : Nat) (data : List Byte) : ∃ a, s.okay id data = s.setWait id (.ready a) := by
  unfold Part.okay
  split
  · exact ⟨_, rfl⟩
  · rename_i absent
    exact ⟨⟨0, true, none, []⟩, (setWait_absent s id _ absent).symm⟩

theorem memoryFault_decides (s : Part) (id : Nat) : ∃ a, s.memoryFault id = s.setWait id (.ready a) := by
  unfold Part.memoryFault
  split
  · exact ⟨_, rfl⟩
  · rename_i absent
    exact ⟨⟨0, true, none, []⟩, (setWait_absent s id _ absent).symm⟩

/-- In the stage in which the parameter read waits, what is taken of a client write changes the Directive Unit alone, and the stage stays. -/
theorem snoop_writes (s : Part) (t : Txn) (c : Nat) (lost : Bool) (slot : s.unit.slot = .busy c lost .writes) :
    ∃ (u : DirUnit) (l : Bool), s.snoop t = { s with unit := u } ∧ u.slot = .busy c l .writes
      ∧ u.pendingFrom = s.unit.pendingFrom ∧ (lost = true → l = true) := by
  unfold Part.snoop
  dsimp only
  split
  · generalize List.foldl _ s.unit.mask (List.range 8) = mask
    have slot' : ({ s with unit := { s.unit with mask := mask } } : Part).unit.slot = .busy c lost .writes := slot
    split
    · rw [take_busy slot', lose_once slot' (by simp)]
      exact ⟨_, true, rfl, rfl, rfl, fun _ => rfl⟩
    · exact ⟨_, lost, rfl, slot, rfl, fun h => h⟩
  · exact ⟨s.unit, lost, rfl, slot, rfl, fun h => h⟩

/-- `s` with the port free, the transaction `id` decided with the answer `a`, and the Directive Unit `u`. -/
def Part.answeredBy (s : Part) (id : Nat) (a : Answer) (u : DirUnit) : Part := { s.freePort.setWait id (.ready a) with unit := u }

@[simp] theorem answeredBy_quiet (s : Part) (id : Nat) (a : Answer) (u : DirUnit) : (s.answeredBy id a u).quiet = s.quiet := rfl
@[simp] theorem answeredBy_unit (s : Part) (id : Nat) (a : Answer) (u : DirUnit) : (s.answeredBy id a u).unit = u := rfl

theorem answeredBy_ownIssued (s : Part) (id i : Nat) (t : Txn) (a : Answer) (u : DirUnit) (port : s.bus.port = some (.client i t)) :
    (s.answeredBy id a u).ownIssued = s.ownIssued := by
  simp [Part.ownIssued, Part.answeredBy, Part.freePort, Part.setWait, port]

theorem memoryAnswered_writes (s : Part) (id : Nat) (t : Txn) (ok : Bool) (data : List Byte) (c : Nat) (lost : Bool)
    (slot : s.unit.slot = .busy c lost .writes) :
    ∃ (a : Answer) (u : DirUnit) (l : Bool), s.memoryAnswered id t ok data = s.answeredBy id a u
      ∧ u.slot = .busy c l .writes ∧ u.pendingFrom = s.unit.pendingFrom ∧ (lost = true → l = true) := by
  unfold Part.memoryAnswered
  cases ok with
  | true =>
    obtain ⟨a, e⟩ := okay_decides s.freePort id (if t.write then [] else s.freePort.passedData t data)
    obtain ⟨u, l, f, stage, from', keeps⟩ := snoop_writes (s.freePort.setWait id (.ready a)) t c lost slot
    exact ⟨a, u, l, by rw [if_pos rfl, e, f]; rfl, stage, from', keeps⟩
  | false =>
    obtain ⟨a, e⟩ := memoryFault_decides s.freePort id
    exact ⟨a, s.unit, lost, by rw [if_neg Bool.false_ne_true, e]; rfl, slot, rfl, fun h => h⟩

/-- Once a transaction is decided, the writes made in PENDING that wait are the others (R179). -/
theorem writesUnanswered_decided (s : Part) (id : Nat) (a : Answer) (u : DirUnit) (from' : u.pendingFrom = s.unit.pendingFrom) :
    (s.answeredBy id a u).writesUnanswered = true
      ↔ ∃ w ∈ s.bus.waiting, w.id ≠ id ∧ s.madeInPending w := by
  rw [writesUnanswered_iff]
  have same : ∀ w, (s.answeredBy id a u).madeInPending w ↔ s.madeInPending w := fun w => by
    rw [Part.madeInPending, Part.madeInPending, answeredBy_unit, from']
    rfl
  simp only [same]
  constructor
  · rintro ⟨w, m, made⟩
    obtain ⟨x, mx, rfl⟩ := List.mem_map.mp m
    by_cases mine : x.id = id
    · rw [if_pos mine] at made
      cases made.1
    · rw [if_neg mine] at made
      exact ⟨x, mx, mine, made⟩
  · rintro ⟨w, m, other, made⟩
    exact ⟨w, List.mem_map.mpr ⟨w, m, if_neg other⟩, made⟩

/-- In the stage in which the parameter read waits it is made when no write made in PENDING is unanswered (R179). -/
theorem writesAnswered_stage (s : Part) (c : Nat) (lost : Bool) (h : s.unit.slot = .busy c lost .writes) :
    s.writesAnswered = if s.writesUnanswered = true then s else s.readBlock c lost := by
  unfold Part.writesAnswered
  rw [h]

/-- The event of memory's answer, whose effect leaves the lanes nothing to settle. -/
theorem passedAnswer_next (s : State) (ok : Bool) (data : List Byte) (x : Part) (high : s.pins.resetLow = false)
    (effect : s.toPart.passedAnswer ok data = x) (quiet : x.quiet = true) :
    exec (.passedThroughAnswer ok data) s = .next { s with toPart := report s.toPart x } :=
  laneEvent_quiet s _ x high effect quiet

/-! ## The slot READY, PENDING and BUSY -/

/-- What a directive write in BUSY leaves: the LOST flag, DIRECTIVE LOST latched, and perhaps a second outcome write (R180). -/
theorem busy_loses (s : State) (code : Byte) (c : Nat) (lost : Bool) (st : Stage) (high : s.pins.resetLow = false)
    (busy : s.unit.slot = .busy c lost st) :
    let again := st = .outcome ∧ lost = false
    ∃ t : State, exec (.directiveLost code) s = .next t ∧ t.pending = s.pending
      ∧ t.blocks = ({ s.toPart with unit := { s.unit with
          slot := .busy c true (if again then .second else st)
          outcome := if again then { s.unit.outcome with lost := true } else s.unit.outcome } } : Part).blocks
      ∧ t.hasIssued s.ownIssued (if again then [t.outcomeWrite true] else [])
      ∧ ((∀ w ∈ s.bus.waiting, w.wait ≠ .cond) → t.unit.latched = s.unit.latched ||| 2#64) := by
  have next := event_next s (fun p => p.takeDirective code.toNat) high
  rw [take_busy busy] at next
  intro again
  refine ⟨_, next, rfl, ?_, ?_, fun noRead => ?_⟩
  all_goals by_cases h : st = .outcome ∧ lost = false
  · simp only [again, if_pos h, report_blocks, lose_again busy h]
    rfl
  · simp only [again, if_neg h, report_blocks, lose_once busy h]
    rfl
  · rw [if_pos h, report_outcomeWrite, lose_again busy h, writeOutcome_eq]
    exact report_issued_of _ _ (pushOwn_ownIssued _ _)
  · rw [if_neg h, lose_once busy h]
    exact report_issued _ _
  · rw [lose_again busy h]
    exact report_keeps_latched _ _ noRead
  · rw [lose_once busy h]
    exact report_keeps_latched _ _ noRead

theorem passedAnswer_report (s : State) (ok : Bool) (data : List Byte) (x : Part) (high : s.pins.resetLow = false)
    (effect : s.toPart.passedAnswer ok data = x) (quiet : x.quiet = true) :
    ∃ u : State, exec (.passedThroughAnswer ok data) s = .next u ∧ u.pending = s.pending ∧ u.toPart = report s.toPart x :=
  ⟨_, passedAnswer_next s ok data x high effect quiet, rfl, rfl⟩

/-- Memory's answer in the stage in which the parameter read waits: with another write made in PENDING unanswered the read waits on,
else it is made (R179). -/
theorem read_let_go (s : State) (c : Nat) (lost ok : Bool) (id : Nat) (t : Txn) (data : List Byte) (high : s.pins.resetLow = false)
    (slot : s.unit.slot = .busy c lost .writes) (port : s.bus.port = some (.client id t)) (quiet : s.quiet = true) :
    let left := ∃ w ∈ s.bus.waiting, w.id ≠ id ∧ s.madeInPending w
    ∃ (u : State) (l : Bool), exec (.passedThroughAnswer ok data) s = .next u ∧ u.pending = s.pending
      ∧ (lost = true → l = true)
      ∧ (left → u.unit.slot = .busy c l .writes ∧ u.hasIssued s.ownIssued [])
      ∧ ((∃ w ∈ s.bus.waiting, w.id = id) → ¬ left → u.unit.slot = .busy c l .parameter
          ∧ u.hasIssued s.ownIssued [readBurst .parameter (s.areaBase + 0x40) 8]) := by
  obtain ⟨a, u, l, effect, stage, from', keeps⟩ := memoryAnswered_writes s.toPart id t ok data c lost slot
  have unanswered := writesUnanswered_decided s.toPart id a u from'
  have issued := answeredBy_ownIssued s.toPart id id t a u port
  have calm : (s.answeredBy id a u).quiet = true := quiet
  have slot' : (s.answeredBy id a u).unit.slot = .busy c l .writes := stage
  have read : (s.answeredBy id a u).readBlock c l
      = ((s.answeredBy id a u).setDirSlot (.busy c l .parameter)).pushOwn [readBurst .parameter (s.areaBase + 0x40) 8] := rfl
  have effect' := passedAnswer_client port ok data
  rw [effect] at effect'
  generalize s.answeredBy id a u = x at unanswered issued calm slot' read effect'
  have answered := writesAnswered_stage x c l slot'
  intro left
  by_cases waits : left
  · rw [answered, if_pos (unanswered.mpr waits)] at effect'
    obtain ⟨v, next, pending, part⟩ := passedAnswer_report s ok data x high effect' calm
    refine ⟨v, l, next, pending, keeps, fun _ => ⟨?_, ?_⟩, fun _ h => absurd waits h⟩
    · rw [part, report_slot, slot']
    · rw [part]
      exact report_issued_of s.toPart x (issued.trans (List.append_nil _).symm)
  · rw [answered, if_neg (unanswered.not.mpr waits), read] at effect'
    obtain ⟨v, next, pending, part⟩ := passedAnswer_report s ok data _ high effect' calm
    refine ⟨v, l, next, pending, keeps, fun h => absurd h waits, fun _ _ => ⟨?_, ?_⟩⟩
    · rw [part, report_slot]
      rfl
    · rw [part]
      refine report_issued_of s.toPart _ ?_
      rw [pushOwn_ownIssued, ← issued]
      rfl

/-- Settles O24. -/
theorem directiveWritesTaken : Obligations.DirectiveWritesTaken := by
  intro s high answered made
  have taken : ∀ (c : Instr) (code : Nat) (x : Part), exec c s = event s (fun p => p.takeDirective code) →
      s.toPart.takeDirective code = x → Leaves c s x := fun c code x e effect => effect ▸ event_leaves c s _ e high
  refine ⟨fun ready => ⟨?_, ?_, fun code unknown empty confirm => ?_, fun code guarded => ?_, fun code known free => ?_⟩,
    fun p pending => ⟨?_, fun kind none' => ?_, fun kind some' => ?_, fun kind => ?_, fun code other => ?_⟩,
    fun code c lost st busy => ⟨rfl, rfl, rfl, busy_loses s code c lost st high busy⟩,
    fun c lost ok id t data slot port quiet => ?_⟩
  · exact taken .emptyCode 0 _ rfl (take_ready_empty ready)
  · have e := (take_ready_confirm ready).trans (answerOnly_eq _ _ _ _)
    exact taken .confirm 0xC9 _ rfl e
  · have empty' : code.toNat ≠ 0 := fun h => empty (BitVec.eq_of_toNat_eq h)
    have confirm' : code.toNat ≠ 0xC9 := fun h => confirm (BitVec.eq_of_toNat_eq h)
    have free : code.toNat ∉ guardedTable := fun h => unknown (guarded_known _ h)
    have e := (take_ready_unknown ready _ empty' confirm' free unknown).trans (answerOnly_eq _ _ _ _)
    exact taken (.unknownCode code) _ _ rfl e
  · obtain ⟨empty, confirm⟩ := known_ne _ (guarded_known _ guarded)
    exact taken (.directiveLost code) _ _ rfl (take_ready_guarded ready _ empty confirm guarded)
  · obtain ⟨empty, confirm⟩ := known_ne _ known
    exact taken (.directiveLost code) _ _ rfl (take_ready_read ready _ empty confirm free known)
  · have e := (take_pending_other pending 0 (by decide)).trans (answerOnly_eq _ _ _ _)
    exact taken .emptyCode 0 _ rfl e
  · have answeredAll : s.toPart.writesUnanswered = false := by
      rw [← Bool.not_eq_true, writesUnanswered_iff]
      rintro ⟨w, m, h⟩
      exact none' w m h
    have e : s.toPart.takeDirective 0xC9 = s.toPart.readBlock p false := by
      simp [take_pending_confirm pending, Part.confirmed, kind, answeredAll]
    exact taken .confirm 0xC9 _ rfl e
  · have unanswered : s.toPart.writesUnanswered = true := (writesUnanswered_iff _).mpr some'
    have e : s.toPart.takeDirective 0xC9 = s.toPart.setDirSlot (.busy p false .writes) := by
      simp [take_pending_confirm pending, Part.confirmed, kind, unanswered]
    exact taken .confirm 0xC9 _ rfl e
  · exact (event_next s _ high).trans ((congrArg (fun x => Host.Outcome.next { s with toPart := report s.toPart x })
      (resetCommand_pending pending kind).symm).trans (event_next s _ high).symm)
  · have other' : code.toNat ≠ 0xC9 := fun h => other (BitVec.eq_of_toNat_eq h)
    have e := (take_pending_other pending _ other').trans (answerOnly_eq _ _ _ _)
    exact taken (.unknownCode code) _ _ rfl e
  · exact read_let_go s c lost ok id t data high slot port quiet

end Sys2Proof.Machine
end

section
/-! SUPPORT. Transactions that pass through to memory, and memory's answers to them (R23 to R26, R179, R183). Settles O6. -/

namespace Sys2Proof.Machine

/-! ## What passes through joins the client line -/

theorem clientTransaction_pass (s : Part) (t : Txn) (h : s.classify t = .pass) :
    s.clientTransaction t = (s.pushClient s.bus.nextId t).acceptedAs t .line none := by
  unfold Part.clientTransaction
  rw [h]
  rfl

/-- Behind a busy port the end of an event leaves the port. -/
theorem report_port (old s : Part) (busy : s.bus.port ≠ none) : (report old s).bus.port = s.bus.port := by
  have same : ((Part.writeSections old s).deliver).bus.port = s.bus.port := writeSections_port old s
  have granted : (report old s).bus.port = (Part.writeSections old s).deliver.grant.bus.port := rfl
  rcases grant_cases (Part.writeSections old s).deliver with ⟨e, _⟩ | ⟨_, _, _, free, _⟩ | ⟨_, _, free, _⟩
  · rw [granted, e, same]
  · exact absurd (same.symm.trans free) busy
  · exact absurd (same.symm.trans free) busy

/-- The transactions that O6 names are treated as passing through (R23 to R26). -/
theorem classify_pass (s : Part) (t : Txn) (formed : t.formed = true)
    (why : s.rangeHit t = .other
      ∨ (s.rangeHit t = .pool ∧ (t.write = false ∨ ¬ s.enablesGuarded t))
      ∨ (s.rangeHit t = .directive ∧ t.write = false ∧ (0x100 < s.offsetIn t ∨ s.offsetIn t + 8 * t.beats ≤ 0x100))
      ∨ (s.rangeHit t = .directive ∧ t.write = true ∧ ¬ s.enablesGuarded t ∧ ¬ s.splitsWord t ∧ ¬ s.meetsRead t)) :
    s.classify t = .pass := by
  rcases why with hit | ⟨hit, free⟩ | ⟨hit, read, off⟩ | ⟨hit, write, free, whole, apart⟩
  · exact classify_other s t formed hit
  · rw [classify_pool s t formed hit, if_neg]
    rintro ⟨write, enables⟩
    rcases free with read | free
    · rw [read] at write
      cases write
    · exact free ((guards_pool_iff s t hit).mpr enables)
  · rw [classify_directive_read s t formed read hit, if_neg]
    omega
  · classical
    rw [classify_directive_written s t formed write hit free whole, if_neg apart]

/-! ## Where every unanswered transaction is decided -/

/-- Every unanswered transaction is decided (R22). -/
def Part.decided (s : Part) : Prop := ∀ w ∈ s.bus.waiting, ∃ a, w.wait = .ready a

theorem foldl_unchanged {α β : Type} (f : β → α → β) (xs : List α) (s : β) (h : ∀ x ∈ xs, ∀ s, f s x = s) : xs.foldl f s = s := by
  induction xs generalizing s with
  | nil => rfl
  | cons x xs ih =>
    rw [List.foldl_cons, h x List.mem_cons_self s]
    exact ih s fun y m => h y (List.mem_cons_of_mem _ m)

theorem writesUnanswered_of_decided (s : Part) (h : s.decided) : s.writesUnanswered = false := by
  rw [← Bool.not_eq_true, writesUnanswered_iff]
  rintro ⟨w, m, line, _⟩
  obtain ⟨a, ready⟩ := h w m
  rw [ready] at line
  cases line

theorem releaseParameters_of_decided (s : Part) (h : s.decided) : s.releaseParameters = s := by
  have none' : s.bus.waiting.filter (fun x => x.wait == .param) = [] := by
    refine List.filter_eq_nil_iff.mpr fun w m => ?_
    obtain ⟨a, ready⟩ := h w m
    simp [ready]
  simp [Part.releaseParameters, none']

theorem resetBus_waiting_of_decided (s : Part) (h : s.decided) : s.resetBus.bus.waiting = s.bus.waiting := by
  let q : Part := { s with bus := { s.bus with ownLine := [], port := discardPort s.bus.port, lastServed := .client } }
  have kept : q.bus.waiting.foldl Part.refuseHeld q = q := foldl_unchanged _ _ _ fun w m p => by
    obtain ⟨a, ready⟩ := h w m
    simp [Part.refuseHeld, ready]
  have reset : s.resetBus = { (q.bus.waiting.foldl Part.refuseHeld q).releaseParameters with path := Path.blank } := rfl
  rw [reset, kept, releaseParameters_of_decided q h]

theorem resetPart_waiting (s : Part) : s.resetPart.bus.waiting = s.resetBlocks.resetBus.bus.waiting := by
  unfold Part.resetPart
  dsimp only
  split <;> exact compose_waiting _ _ _

/-- RESET PART decides no transaction again (R39). -/
theorem resetPart_of_decided (s : Part) (h : s.decided) :
    s.resetPart.bus.waiting = s.bus.waiting ∧ s.resetPart.bus.answered = s.bus.answered := by
  refine ⟨(resetPart_waiting s).trans (resetBus_waiting_of_decided s.resetBlocks h), ?_⟩
  obtain ⟨ws, cl, e⟩ := resetPart_eq s
  rw [e]
  rfl

/-- A directive write changes no transaction that is decided (R22). -/
theorem takeDirective_of_decided (s : Part) (code : Nat) (h : s.decided) :
    (s.takeDirective code).bus.waiting = s.bus.waiting ∧ (s.takeDirective code).bus.answered = s.bus.answered := by
  cases slot : s.unit.slot with
  | ready =>
    simp only [Part.takeDirective, slot]
    repeat' split
    all_goals exact ⟨rfl, rfl⟩
  | pending p =>
    by_cases confirm : code = 0xC9
    · subst confirm
      rw [take_pending_confirm slot, Part.confirmed, writesUnanswered_of_decided s h]
      split
      · exact resetPart_of_decided s h
      · exact ⟨rfl, rfl⟩
    · rw [take_pending_other slot code confirm]
      exact ⟨rfl, rfl⟩
  | busy c lost st =>
    rw [take_busy slot]
    by_cases again : st = .outcome ∧ lost = false
    · rw [lose_again slot again]
      exact ⟨rfl, rfl⟩
    · rw [lose_once slot again]
      exact ⟨rfl, rfl⟩

/-! ## The parameter read that waited (R179) -/

/-- `s` with the parameter read that waited for writes made in PENDING made, where one waited (R179). -/
def Part.readMade (s : Part) : Part :=
  match s.unit.slot with
  | .busy c lost .writes => (s.setDirSlot (.busy c lost .parameter)).pushOwn [readBurst .parameter (s.areaBase + 0x40) 8]
  | _ => s

theorem writesAnswered_of_decided (s : Part) (h : s.decided) : s.writesAnswered = s.readMade := by
  unfold Part.writesAnswered Part.readMade
  rw [writesUnanswered_of_decided s h]
  rfl

theorem readMade_waiting (s : Part) : s.readMade.bus.waiting = s.bus.waiting := by unfold Part.readMade; split <;> rfl
theorem readMade_answered (s : Part) : s.readMade.bus.answered = s.bus.answered := by unfold Part.readMade; split <;> rfl
theorem readMade_latched (s : Part) : s.readMade.unit.latched = s.unit.latched := by unfold Part.readMade; split <;> rfl
theorem readMade_quiet (s : Part) : s.readMade.quiet = s.quiet := by unfold Part.readMade; split <;> rfl

theorem readMade_answeredBy_blocks (s : Part) (id : Nat) (a : Answer) :
    (s.answeredBy id a s.unit).readMade.blocks = s.readMade.blocks := by
  unfold Part.readMade
  rw [answeredBy_unit]
  split <;> rfl

theorem readMade_answeredBy_ownIssued (s : Part) (id i : Nat) (t : Txn) (a : Answer) (port : s.bus.port = some (.client i t)) :
    (s.answeredBy id a s.unit).readMade.ownIssued = s.readMade.ownIssued := by
  have issued := answeredBy_ownIssued s id i t a s.unit port
  unfold Part.readMade
  rw [answeredBy_unit]
  split
  · exact (pushOwn_ownIssued _ _).trans ((congrArg (· ++ _) issued).trans (pushOwn_ownIssued _ _).symm)
  · exact issued

/-! ## Memory's answer to the only unanswered transaction -/

section Alone
variable {s : Part} {id : Nat} {t : Txn} {held : Option Nat} (alone : s.bus.waiting = [⟨id, t, .line, held⟩])
include alone

theorem answeredBy_waiting (a : Answer) (u : DirUnit) : (s.answeredBy id a u).bus.waiting = [⟨id, t, .ready a, held⟩] := by
  simp [Part.answeredBy, Part.setWait, Part.freePort, alone]

theorem answeredBy_decided (a : Answer) (u : DirUnit) : (s.answeredBy id a u).decided := by
  intro w m
  rw [answeredBy_waiting alone, List.mem_singleton] at m
  exact ⟨a, by rw [m]⟩

theorem okay_alone (data : List Byte) : s.freePort.okay id data = s.answeredBy id ⟨t.tag, true, none, data⟩ s.unit := by
  have found : s.freePort.findTxn id = some ⟨id, t, .line, held⟩ := by simp [Part.findTxn, Part.freePort, alone]
  unfold Part.okay
  rw [found]
  rfl

theorem memoryFault_alone : s.freePort.memoryFault id
    = s.answeredBy id ⟨t.tag, false, none, if t.write then [] else zeros (8 * t.beats)⟩ s.unit := by
  have found : s.freePort.findTxn id = some ⟨id, t, .line, held⟩ := by simp [Part.findTxn, Part.freePort, alone]
  unfold Part.memoryFault
  rw [found]
  rfl

end Alone

/-- The end of an event at which the only unanswered transaction is decided gives its answer back (R22). -/
theorem report_decided (old s : Part) (id : Nat) (t : Txn) (held : Option Nat) (a : Answer)
    (alone : s.bus.waiting = [⟨id, t, .ready a, held⟩]) :
    (report old s).bus.waiting = [] ∧ (report old s).bus.answered = s.bus.answered ++ [a]
      ∧ (report old s).unit.latched = s.unit.latched := by
  simp [alone, deliverFrom]

/-- Nothing is taken of a transaction that is no write in the directive area (R26). -/
theorem snoop_other (s : Part) (t : Txn) (other : s.rangeHit t ≠ .directive ∨ t.write = false) : s.snoop t = s := by
  unfold Part.snoop
  refine if_neg ?_
  rintro ⟨hit, write⟩
  rcases other with other | read
  · exact other hit
  · rw [read] at write
    cases write

/-! ## The bytes of a passed-through read (R24, R189) -/

theorem padTo_of_length (bs : List Byte) : padTo bs.length bs = bs := by simp [padTo, zeros]

theorem maskedBytes_getElem? (off : Nat) (data : List Byte) (n : Nat) (b : Byte) (h : data[n]? = some b) :
    (maskedBytes off data)[n]? = some (if 0x108 ≤ off + n ∧ off + n < 0x110 then
      b &&& ([0xFF, 0xFF, 0, 0, 0x3F, 0, 0, 0] : List Byte).getD (off + n - 0x108) 0 else b) := by
  have bytes : leBytes 8 conditionBits.toNat = [0xFF, 0xFF, 0, 0, 0x3F, 0, 0, 0] := by decide
  simp [maskedBytes, List.getElem?_zipIdx, h, bytes, byteAt]

/-- What goes back with an OKAY: the data that memory gave, the mask bits without a condition cleared (R24, R189). -/
def Part.backData (s : Part) (t : Txn) (data : List Byte) : List Byte := if t.write then [] else s.passedData t data

theorem passedData_eq (s : Part) (t : Txn) (data : List Byte) (whole : data.length = 8 * t.beats) :
    s.passedData t data = if s.rangeHit t = .directive then maskedBytes (s.offsetIn t) data else data := by
  unfold Part.passedData
  rw [← whole, padTo_of_length]

theorem backData_length (s : Part) (t : Txn) (data : List Byte) (whole : data.length = if t.write then 0 else 8 * t.beats) :
    (s.backData t data).length = data.length := by
  unfold Part.backData
  cases write : t.write with
  | true => simpa [write] using whole.symm
  | false =>
    simp only [write, Bool.false_eq_true, if_false] at whole ⊢
    rw [passedData_eq s t data whole]
    split
    · simp [maskedBytes]
    · rfl

theorem backData_getElem? (s : Part) (t : Txn) (data : List Byte) (whole : data.length = if t.write then 0 else 8 * t.beats)
    (n : Nat) (b : Byte) (h : data[n]? = some b) :
    (s.backData t data)[n]? = some (if s.rangeHit t = .directive ∧ 0x108 ≤ s.offsetIn t + n ∧ s.offsetIn t + n < 0x110 then
      b &&& ([0xFF, 0xFF, 0, 0, 0x3F, 0, 0, 0] : List Byte).getD (s.offsetIn t + n - 0x108) 0 else b) := by
  unfold Part.backData
  cases write : t.write with
  | true =>
    rw [write, if_pos rfl] at whole
    rw [List.eq_nil_of_length_eq_zero whole] at h
    cases h
  | false =>
    simp only [write, Bool.false_eq_true, if_false] at whole ⊢
    rw [passedData_eq s t data whole]
    by_cases hit : s.rangeHit t = .directive
    · rw [if_pos hit, maskedBytes_getElem? _ _ n b h]
      simp only [hit, true_and]
    · rw [if_neg hit, if_neg (fun both => hit both.1), h]

/-! ## The Condition Mask taken of a client write (R183) -/

/-- One byte of a 64-bit word replaced. -/
def putByte (m : BitVec 64) (i : Nat) (b : Byte) : BitVec 64 := (m &&& ~~~ (0xFF#64 <<< (8 * i))) ||| (b.setWidth 64 <<< (8 * i))

theorem getLsbD_byteMask (j : Nat) : (0xFF#64).getLsbD j = decide (j < 8) := by
  by_cases small : j < 64
  · exact (by decide : ∀ k : Fin 64, (0xFF#64).getLsbD k.val = decide (k.val < 8)) ⟨j, small⟩
  · rw [BitVec.getLsbD_of_ge _ _ (by omega), decide_eq_false (by omega)]

theorem putByte_getLsbD (m : BitVec 64) (i : Nat) (b : Byte) (n : Nat) (small : n < 64) :
    (putByte m i b).getLsbD n = if n / 8 = i then b.getLsbD (n % 8) else m.getLsbD n := by
  simp only [putByte, BitVec.getLsbD_or, BitVec.getLsbD_and, BitVec.getLsbD_not, BitVec.getLsbD_shiftLeft, getLsbD_byteMask,
    BitVec.getLsbD_setWidth, small, decide_true, Bool.true_and]
  by_cases before : n < 8 * i
  · rw [if_neg (by omega)]
    simp [before]
  · by_cases inside : n < 8 * i + 8
    · have place : n - 8 * i = n % 8 := by omega
      rw [if_pos (by omega), place]
      simp [before, Nat.mod_lt, show n % 8 < 64 by omega]
    · rw [if_neg (by omega), BitVec.getLsbD_of_ge b _ (by omega)]
      simp [before, show ¬ n - 8 * i < 8 by omega]

/-- The first `k` bytes of a word replaced where `p` says so. -/
def putBytes (p : Nat → Bool) (v : Nat → Byte) (k : Nat) (m : BitVec 64) : BitVec 64 :=
  (List.range k).foldl (fun m i => if p i then putByte m i (v i) else m) m

theorem putBytes_getLsbD (p : Nat → Bool) (v : Nat → Byte) (k : Nat) (m : BitVec 64) (n : Nat) (small : n < 64) :
    (putBytes p v k m).getLsbD n = if n / 8 < k ∧ p (n / 8) = true then (v (n / 8)).getLsbD (n % 8) else m.getLsbD n := by
  induction k with
  | zero => simp [putBytes]
  | succ k ih =>
    have step : putBytes p v (k + 1) m = if p k then putByte (putBytes p v k m) k (v k) else putBytes p v k m := by
      simp [putBytes, List.range_succ]
    rw [step]
    by_cases last : n / 8 = k
    · cases on : p k with
      | true => simp [putByte_getLsbD _ _ _ _ small, last, on]
      | false => simp [ih, last, on]
    · have same : n / 8 < k + 1 ↔ n / 8 < k := by omega
      simp only [same]
      split
      · rw [putByte_getLsbD _ _ _ _ small, if_neg last, ih]
      · exact ih

/-- The Condition Mask after a write in the directive area (R183). -/
def Part.maskTaken (s : Part) (t : Txn) (off : Nat) : BitVec 64 :=
  putBytes (fun i => t.enables off (0x108 + i)) (fun i => byteAt t.data (0x108 + i - off)) 8 s.unit.mask

theorem maskTaken_eq (s : Part) (t : Txn) (off : Nat) (mask : BitVec 64)
    (h : ∀ n : Fin 64, mask.getLsbD n.val = if t.enablesAt off (0x108 + n.val / 8) then
      (byteAt t.data (0x108 + n.val / 8 - off)).getLsbD (n.val % 8) else s.unit.mask.getLsbD n.val) :
    s.maskTaken t off = mask := by
  refine BitVec.eq_of_getLsbD_eq fun n small => ?_
  rw [h ⟨n, small⟩, Part.maskTaken, putBytes_getLsbD _ _ _ _ _ small]
  have inside : n / 8 < 8 := by omega
  simp only [inside, true_and, Txn.enables_iff]

/-- A write in the directive area: the mask is taken, and the directive write where all of its word is enabled (R26). -/
theorem snoop_directive (s : Part) (t : Txn) (hit : s.rangeHit t = .directive) (write : t.write = true) :
    s.snoop t = if (List.range 8).all (fun i => t.enables (s.offsetIn t) i) then
      ({ s with unit := { s.unit with mask := s.maskTaken t (s.offsetIn t) } } : Part).takeDirective (byteAt t.data 0).toNat
      else { s with unit := { s.unit with mask := s.maskTaken t (s.offsetIn t) } } := by
  have first : byteAt t.data (0 - s.offsetIn t) = byteAt t.data 0 := by rw [Nat.zero_sub]
  rw [← first]
  exact if_pos ⟨hit, write⟩

/-! ## O6, clause by clause -/

/-- What passes through waits for memory behind a busy port. -/
theorem pass_event (s : State) (t : Txn) (high : s.pins.resetLow = false) (h : s.classify t = .pass) (busy : s.bus.port ≠ none)
    (alone : s.bus.waiting = []) (quiet : s.quiet = true) :
    ∃ u : State, exec (.clientTransaction t) s = .next u ∧ u.pending = s.pending ∧ u.blocks = s.blocks
      ∧ u.unit.latched = s.unit.latched
      ∧ u.bus.clientLine = s.bus.clientLine ++ [(s.bus.nextId, t)] ∧ u.bus.waiting = [⟨s.bus.nextId, t, .line, none⟩]
      ∧ u.bus.answered = s.bus.answered ∧ u.bus.port = s.bus.port := by
  have next := transaction_next s t _ high (clientTransaction_pass s.toPart t h) quiet
  obtain ⟨waiting, answered, latched⟩ := report_waits s.toPart (s.toPart.pushClient s.bus.nextId t) t none alone .line rfl
  have lines := report_clientLine s.toPart ((s.toPart.pushClient s.bus.nextId t).acceptedAs t .line none) busy
  have port := report_port s.toPart ((s.toPart.pushClient s.bus.nextId t).acceptedAs t .line none) busy
  exact ⟨_, next, rfl, report_blocks _ _, latched, lines, waiting, answered, port⟩

/-- Memory's answer to a transaction of which nothing is taken. -/
theorem answer_event (s : State) (id : Nat) (t : Txn) (held : Option Nat) (ok : Bool) (data : List Byte)
    (high : s.pins.resetLow = false) (port : s.bus.port = some (.client id t)) (alone : s.bus.waiting = [⟨id, t, .line, held⟩])
    (other : s.rangeHit t ≠ .directive ∨ t.write = false ∨ ok = false) (quiet : s.quiet = true) :
    ∃ u : State, exec (.passedThroughAnswer ok data) s = .next u ∧ u.pending = s.pending
      ∧ u.blocks = s.toPart.readMade.blocks ∧ u.hasIssued s.toPart.readMade.ownIssued []
      ∧ u.unit.latched = s.unit.latched ∧ u.bus.waiting = []
      ∧ u.bus.answered = s.bus.answered
        ++ [⟨t.tag, ok, none, if ok then s.backData t data else if t.write then [] else zeros (8 * t.beats)⟩] := by
  let a : Answer := ⟨t.tag, ok, none, if ok then s.backData t data else if t.write then [] else zeros (8 * t.beats)⟩
  have decided : s.memoryAnswered id t ok data = s.answeredBy id a s.unit := by
    unfold Part.memoryAnswered
    cases ok with
    | true =>
      rw [if_pos rfl, okay_alone alone]
      refine snoop_other (s.answeredBy id _ s.unit) t ?_
      rcases other with other | read | fault
      · exact .inl other
      · exact .inr read
      · cases fault
    | false => exact memoryFault_alone alone
  have effect : s.passedAnswer ok data = (s.answeredBy id a s.unit).readMade := by
    rw [passedAnswer_client port, decided, writesAnswered_of_decided _ (answeredBy_decided alone a s.unit)]
  have next := passedAnswer_next s ok data _ high effect ((readMade_quiet _).trans quiet)
  obtain ⟨waiting, answered, latched⟩ := report_decided s.toPart (s.answeredBy id a s.unit).readMade id t held a
    ((readMade_waiting _).trans (answeredBy_waiting alone a s.unit))
  refine ⟨_, next, rfl, ?_, ?_, latched.trans (readMade_latched _), waiting, ?_⟩
  · rw [report_blocks, readMade_answeredBy_blocks]
  · rw [← readMade_answeredBy_ownIssued s.toPart id id t a port]
    exact report_issued _ _
  · rw [answered, readMade_answered]
    rfl

/-- Memory's OKAY to a write in the directive area: its effect is that of `x`, and the write is answered OKAY. -/
theorem write_event (s : State) (id : Nat) (t : Txn) (held : Option Nat) (x : Part) (high : s.pins.resetLow = false)
    (port : s.bus.port = some (.client id t)) (effect : s.memoryAnswered id t true [] = x)
    (waiting : x.bus.waiting = [⟨id, t, .ready ⟨t.tag, true, none, []⟩, held⟩]) (answered : x.bus.answered = s.bus.answered) :
    Leaves (.passedThroughAnswer true []) s x.readMade
    ∧ (x.readMade.quiet = true → ∀ u : State, exec (.passedThroughAnswer true []) s = .next u →
        u.bus.answered = s.bus.answered ++ [⟨t.tag, true, none, []⟩]) := by
  have decided : x.decided := by
    intro w m
    rw [waiting, List.mem_singleton] at m
    exact ⟨_, by rw [m]⟩
  have made : s.passedAnswer true [] = x.readMade := by
    rw [passedAnswer_client port, effect, writesAnswered_of_decided x decided]
  refine ⟨made ▸ laneEvent_leaves (.passedThroughAnswer true []) s _ rfl high, fun quiet u next => ?_⟩
  cases (passedAnswer_next s true [] _ high made quiet).symm.trans next
  obtain ⟨_, back, _⟩ := report_decided s.toPart x.readMade id t held ⟨t.tag, true, none, []⟩ ((readMade_waiting x).trans waiting)
  rw [back, readMade_answered, answered]

/-- Settles O6: what passes through joins the client line (`pass_event`), and memory's answer decides it (`answer_event`,
`write_event`). -/
theorem transactionPassesThrough : Obligations.TransactionPassesThrough := by
  refine ⟨fun s t high formed why busy alone quiet => ?_,
    fun s id t held ok data high port alone other whole quiet => ?_,
    fun s id t held mask high port alone hit write => ?_⟩
  · exact pass_event s t high (classify_pass s.toPart t formed why) busy alone quiet
  · obtain ⟨u, next, pending, blocks, issued, latched, waiting, answered⟩ :=
      answer_event s id t held ok data high port alone other quiet
    exact ⟨u, s.backData t data, next, pending, blocks, issued, latched, waiting, answered, backData_length s.toPart t data whole,
      backData_getElem? s.toPart t data whole⟩
  · intro off bits c q whole leaves
    have okay : s.freePort.okay id [] = s.answeredBy id ⟨t.tag, true, none, []⟩ s.unit := okay_alone alone []
    have taken := snoop_directive (s.answeredBy id ⟨t.tag, true, none, []⟩ s.unit) t hit write
    have mask' : (s.answeredBy id ⟨t.tag, true, none, []⟩ s.unit).maskTaken t off = mask := maskTaken_eq _ t off mask bits
    have hq : q = s.answeredBy id ⟨t.tag, true, none, []⟩ { s.unit with mask := mask } :=
      congrArg (fun p : Part => { p with unit := { s.unit with mask := mask } }) okay
    have waiting : q.bus.waiting = [⟨id, t, .ready ⟨t.tag, true, none, []⟩, held⟩] := hq ▸ answeredBy_waiting alone _ _
    have decided : q.decided := hq ▸ answeredBy_decided alone _ _
    have answered : q.bus.answered = s.bus.answered := hq ▸ rfl
    have all : (List.range 8).all (fun i => t.enables off i) = true ↔ whole := by
      simp only [List.all_eq_true, List.mem_range, Txn.enables_iff]
      rfl
    have effect : s.memoryAnswered id t true [] = if (List.range 8).all (fun i => t.enables off i) then
        q.takeDirective (byteAt t.data 0).toNat else q := by
      unfold Part.memoryAnswered
      rw [if_pos rfl, if_pos write, okay, taken, hq, ← mask']
      rfl
    refine ⟨fun enables => ?_, fun partly => ?_⟩
    · rw [if_pos (all.mpr enables)] at effect
      obtain ⟨same, same'⟩ := takeDirective_of_decided q (byteAt t.data 0).toNat decided
      exact write_event s id t held _ high port effect (same.trans waiting) (same'.trans answered)
    · rw [if_neg (all.not.mpr partly)] at effect
      exact write_event s id t held _ high port effect waiting answered

end Sys2Proof.Machine
end

section
/-! SUPPORT. The Parameter Block read answered: held writes go on, the directive is carried out (R22, R28, R180). Settles O27. -/

namespace Sys2Proof.Machine

/-! ## Held Parameter Block writes go on -/

/-- `s` with the transactions of the numbers `ids` put to wait for memory. -/
def lined (ids : List Nat) (ws : List Waiting) : List Waiting :=
  ws.map (fun w => if w.id ∈ ids then { w with wait := .line } else w)

/-- `s` with other transactions unanswered and another client line. -/
def Part.withLine (s : Part) (ws : List Waiting) (cl : List (Nat × Txn)) : Part :=
  { s with bus := { s.bus with waiting := ws, clientLine := cl } }

theorem foldl_release (xs : List Waiting) (s : Part) :
    xs.foldl (fun s x => (s.setWait x.id .line).pushClient x.id x.txn) s
      = s.withLine (lined (xs.map (·.id)) s.bus.waiting) (s.bus.clientLine ++ xs.map (fun w => (w.id, w.txn))) := by
  induction xs generalizing s with
  | nil => simp [lined, Part.withLine]
  | cons x xs ih =>
    have first : (s.setWait x.id .line).pushClient x.id x.txn
        = s.withLine (lined [x.id] s.bus.waiting) (s.bus.clientLine ++ [(x.id, x.txn)]) := by
      simp [Part.setWait, Part.pushClient, Part.withLine, lined]
    have twice : lined (xs.map (·.id)) (lined [x.id] s.bus.waiting) = lined (x.id :: xs.map (·.id)) s.bus.waiting := by
      simp only [lined, List.map_map]
      refine List.map_congr_left fun w _ => ?_
      by_cases mine : w.id = x.id
      · simp [mine]
      · simp [mine]
    rw [List.foldl_cons, first, ih]
    simp only [Part.withLine, twice, List.map_cons, List.append_assoc, List.singleton_append]

/-- The writes held for the parameter read. -/
abbrev heldParameters (ws : List Waiting) : List Waiting := ws.filter (fun x => x.wait == .param)

theorem releaseParameters_eq (s : Part) :
    s.releaseParameters = s.withLine (lined ((heldParameters s.bus.waiting).map (·.id)) s.bus.waiting)
      (s.bus.clientLine ++ (heldParameters s.bus.waiting).map (fun w => (w.id, w.txn))) := foldl_release _ s

theorem lined_noConditionRead (ids : List Nat) (ws : List Waiting) (h : ∀ w ∈ ws, w.wait ≠ .cond) :
    ∀ w ∈ lined ids ws, w.wait ≠ .cond := by
  intro w m
  obtain ⟨x, mx, rfl⟩ := List.mem_map.mp m
  by_cases mine : x.id ∈ ids
  · rw [if_pos mine]
    exact nofun
  · rw [if_neg mine]
    exact h x mx

theorem lined_all (ws : List Waiting) : lined (ws.map (·.id)) ws = ws.map (fun w => { w with wait := .line }) :=
  List.map_congr_left fun _ m => if_pos (List.mem_map_of_mem m)

/-! ## Outcomes composed -/

/-- An outcome composed with its write issued. -/
def Part.outcomeIssued (s : Part) (code : Nat) (r : Result) (d : Nat) : Part :=
  (s.composed code r d).pushOwn [(s.composed code r d).outcomeWrite false]

theorem compose_busy (s : Part) (code : Nat) (st : Stage) (r : Result) (d : Nat) (h : s.unit.slot = .busy code false st) :
    s.compose r d = s.outcomeIssued code r d := by
  unfold Part.compose
  rw [h]
  exact writeOutcome_eq (s.composed code r d) false

section WithLine
variable (s : Part) (ws : List Waiting) (cl : List (Nat × Txn))
@[simp] theorem withLine_blocks : (s.withLine ws cl).blocks = s.blocks := rfl
@[simp] theorem withLine_frame : (s.withLine ws cl).frame = s.frame := rfl
@[simp] theorem withLine_quiet : (s.withLine ws cl).quiet = s.quiet := rfl
@[simp] theorem withLine_ownIssued : (s.withLine ws cl).ownIssued = s.ownIssued := rfl
@[simp] theorem withLine_unit : (s.withLine ws cl).unit = s.unit := rfl
end WithLine

/-- An effect and the same with other transactions waiting leave the same, as long as none of these is a Condition Word read. -/
theorem leaves_of_withLine {c : Instr} {s : State} {x : Part} {ws : List Waiting} {cl : List (Nat × Txn)}
    (h : Leaves c s (x.withLine ws cl)) (noRead : x.noConditionRead → ∀ w ∈ ws, w.wait ≠ .cond) : Leaves c s x := by
  obtain ⟨t, next, pending, frame, rest⟩ := h
  rw [withLine_frame] at frame
  rw [withLine_quiet, withLine_blocks, withLine_ownIssued, withLine_unit] at rest
  refine ⟨t, next, pending, frame, fun quiet => ?_⟩
  obtain ⟨blocks, issued, latched⟩ := rest quiet
  exact ⟨blocks, issued, fun calm => latched (noRead calm)⟩

section OutcomeIssued
variable (s : Part) (code : Nat) (r : Result) (d : Nat)
theorem outcomeIssued_frame : (s.outcomeIssued code r d).frame = (s.composed code r d).frame := rfl
theorem outcomeIssued_quiet : (s.outcomeIssued code r d).quiet = s.quiet := rfl
end OutcomeIssued

theorem conclude_some (old x : Part) (again : Bool) (r : Result) (d : Nat) :
    Part.conclude old again (x, some (r, d)) = (settle old x again).compose r d := rfl

/-- A directive carried out leaves what its judgement leaves, and its outcome's write (R180). -/
theorem conclude_leaves {c : Instr} {s : State} {f : Part → Part} {code : Nat} {x : Part} {st : Stage} {r : Result} {d : Nat}
    {old : Part} {again : Bool} (e : exec c s = event s f) (high : s.pins.resetLow = false)
    (effect : f s.toPart = Part.conclude old again (x, some (r, d))) (busy : x.unit.slot = .busy code false st) :
    Leaves c s (x.outcomeIssued code r d) := by
  obtain ⟨t, next, pending, blocks, frame, issued, latched⟩ := event_blocks s f high
  rw [effect, conclude_some] at blocks frame issued latched
  have still := settle_still old x again
  have calm := settle_quiet old x again
  generalize settle old x again = y at blocks frame issued latched still calm
  have busy' : y.unit.slot = .busy code false st := (congrArg (fun z : Still => z.unit.slot) still).trans busy
  rw [compose_busy y code st r d busy'] at blocks frame issued latched
  refine ⟨t, e.trans next, pending, ?_, fun quiet => ?_⟩
  · rw [frame, outcomeIssued_frame, outcomeIssued_frame, composed_frame code r d still]
  · rw [outcomeIssued_quiet] at quiet
    rw [calm quiet] at blocks issued latched
    exact ⟨blocks, issued, latched⟩

/-! ## The fields of SET TIMING (R190) -/

theorem p16_toNat (data : List Byte) (o : Nat) (inside : o + 2 ≤ data.length) :
    (p16 data o).toNat = (byteAt data o).toNat + 256 * (byteAt data (o + 1)).toNat := by
  have two : slice data o 2 = [byteAt data o, byteAt data (o + 1)] := by
    unfold slice byteAt
    have first : o < data.length := by omega
    have second : o + 1 < data.length := by omega
    rw [List.drop_eq_getElem_cons first, List.drop_eq_getElem_cons second]
    simp only [List.take_succ_cons, List.take_zero, List.getD_eq_getElem?_getD, List.getElem?_eq_getElem first,
      List.getElem?_eq_getElem second, Option.getD_some]
  have low := (byteAt data o).isLt
  have high := (byteAt data (o + 1)).isLt
  unfold p16 field
  rw [two, BitVec.toNat_ofNat]
  simp only [leNat]
  omega

/-! ## The parameter read answered -/

section Answered
variable {s : Part} {a : OwnAccess} {code : Nat} (port : s.bus.port = some (.own a false)) (kind : a.kind = .parameter)
  (busy : s.unit.slot = .busy code false .parameter) (data : List Byte)
include port kind busy

/-- A FAULT on the read gives PARAMETER (R180). -/
theorem parameterRead_fault : s.ownAnswered (fun x => x == .parameter) false data
    = s.freePort.releaseParameters.outcomeIssued code .parameter 0 := by
  have busy' : s.freePort.unit.slot = .busy code false .parameter := busy
  rw [ownAnswered_parameter port false data kind rfl, Part.parameterAnswered, busy']
  refine compose_busy _ code .parameter .parameter 0 ?_
  rw [releaseParameters_eq]
  exact busy

/-- The Parameter Block read: the directive is judged and carried out (R180). -/
theorem parameterRead_okay : s.ownAnswered (fun x => x == .parameter) true data
    = (s.freePort.releaseParameters.setDirSlot (.busy code false .outcome)).carryOut code (padTo 64 data) := by
  have busy' : s.freePort.unit.slot = .busy code false .parameter := busy
  rw [ownAnswered_parameter port true data kind rfl, Part.parameterAnswered, busy']
  rfl

end Answered

/-- The part that SET TIMING of the two counts leaves (R36). -/
def Part.timed (s : Part) (hold idle : Nat) : Part :=
  { s with path := { s.path with holdLimit := max 1 (min 255 hold), idleTime := max 1 (min 255 idle) } }

/-- SET TIMING's detail (R36). -/
def timingDetail (hold idle : Nat) : Nat := if 1 ≤ hold ∧ hold ≤ 255 ∧ 1 ≤ idle ∧ idle ≤ 255 then 0 else 1

theorem setTiming_timed (s : Part) (hold idle : Nat) :
    s.setTiming hold idle = (s.timed hold idle, some (.accepted, timingDetail hold idle)) := setTiming_eq s hold idle

/-- SET TIMING's code and a Parameter Block: the two counts of the block are set (R36, R190). -/
theorem carryOut_setTiming (s : Part) (b : List Byte) : s.carryOut 0x02 b = Part.conclude s false
    (s.timed (p16 b 0).toNat (p16 b 2).toNat, some (.accepted, timingDetail (p16 b 0).toNat (p16 b 2).toNat)) := by
  have read : readParameters 0x02 b = some (.setTiming (p16 b 0) (p16 b 2)) := rfl
  have set := setTiming_timed s (p16 b 0).toNat (p16 b 2).toNat
  have again : chooseAgain s (s.setTiming (p16 b 0).toNat (p16 b 2).toNat) false = false := by
    simp [chooseAgain, set, Part.timed]
  rw [carryOut_directiveOf s read rfl]
  exact (congrArg (Part.conclude s · _) again).trans (congrArg (Part.conclude s false) set)

/-- The outcome of a directive in the answered state: its write behind the other own accesses, the port free. -/
def Part.outcomeAnswer (s : Part) : Part := s.freePort.pushOwn [s.outcomeWrite false]

theorem outcomeIssued_withLine (s : Part) (ws : List Waiting) (cl : List (Nat × Txn)) (code : Nat) (r : Result) (d : Nat) :
    (s.freePort.withLine ws cl).outcomeIssued code r d = (s.composed code r d).outcomeAnswer.withLine ws cl := rfl

theorem timed_outcomeIssued_withLine (s : Part) (x : DirSlot) (ws : List Waiting) (cl : List (Nat × Txn)) (hold idle code : Nat)
    (r : Result) (d : Nat) : (((s.freePort.withLine ws cl).setDirSlot x).timed hold idle).outcomeIssued code r d
      = ((s.timed hold idle).composed code r d).outcomeAnswer.withLine ws cl := rfl

/-! ## The client line of a free port -/

/-- The client's transactions on their way to memory: the one on the port, then the client line (R24, R37). -/
def Part.clientIssued (s : Part) : List (Nat × Txn) :=
  (match s.bus.port with
    | some (.client j t) => [(j, t)]
    | _ => []) ++ s.bus.clientLine

theorem grant_clientIssued (s : Part) : s.grant.clientIssued = s.clientIssued := by
  rcases grant_cases s with ⟨e, _⟩ | ⟨i, t, rest, free, line, _, e⟩ | ⟨a, rest, free, _, _, e⟩
  · rw [e]
  · simp [e, Part.clientIssued, free, line]
  · simp [e, Part.clientIssued, free]

theorem report_clientIssued (old s : Part) : (report old s).clientIssued = s.clientIssued := by
  have granted : (report old s).clientIssued = (Part.writeSections old s).deliver.grant.clientIssued := rfl
  have before : (Part.writeSections old s).deliver.clientIssued = (Part.writeSections old s).clientIssued := rfl
  rw [granted, grant_clientIssued, before]
  simp [Part.clientIssued]

/-- The end of an event at which every unanswered transaction waits for memory leaves them all. -/
theorem report_lined (old s : Part) (h : ∀ w ∈ s.bus.waiting, w.wait = .line) : (report old s).bus.waiting = s.bus.waiting := by
  rw [report_waiting, deliverFrom_eq]
  have all : ∀ (ws : List Waiting) (blocked : List (BitVec 4)), (∀ w ∈ ws, w.wait = .line) → leftOver ws blocked = ws := by
    intro ws
    induction ws with
    | nil => exact fun _ _ => rfl
    | cons x xs ih =>
      intro blocked lines
      have stays : x.due = false := by simp [Waiting.due, lines x List.mem_cons_self]
      rw [leftOver, if_pos (.inr stays), ih _ fun w m => lines w (List.mem_cons_of_mem _ m)]
  exact all _ _ h

theorem outcomeIssued_bus (s : Part) (code : Nat) (r : Result) (d : Nat) :
    (s.outcomeIssued code r d).bus = { s.bus with ownLine := s.bus.ownLine ++ [(s.composed code r d).outcomeWrite false] } := rfl

/-- The read answered with its directive's outcome composed: the held writes, all there are, have gone on to the client line. -/
theorem held_go_on (s : State) (ok : Bool) (data : List Byte) (y : Part) (code : Nat) (r : Result) (d : Nat)
    (high : s.pins.resetLow = false) (held : ∀ w ∈ s.bus.waiting, w.wait = .param)
    (effect : s.ownAnswered (fun k => k == .parameter) ok data = y.outcomeIssued code r d)
    (bus : y.bus = s.freePort.releaseParameters.bus) :
    ∃ u : State, exec (.parameterReadAnswered ok data) s = .next u
      ∧ u.bus.waiting = s.bus.waiting.map (fun w => { w with wait := .line })
      ∧ u.clientIssued = s.bus.clientLine ++ s.bus.waiting.map (fun w => (w.id, w.txn)) := by
  have all : heldParameters s.freePort.bus.waiting = s.freePort.bus.waiting := List.filter_eq_self.mpr fun w m => by simp [held w m]
  rw [releaseParameters_eq, all, lined_all] at bus
  have next := event_next s (fun p => p.ownAnswered (fun k => k == .parameter) ok data) high
  simp only [effect] at next
  refine ⟨_, next, ?_, ?_⟩
  · refine (report_lined s.toPart (y.outcomeIssued code r d) fun w m => ?_).trans ?_
    · rw [outcomeIssued_bus, bus] at m
      obtain ⟨x, _, rfl⟩ := List.mem_map.mp m
      rfl
    · rw [outcomeIssued_bus, bus]
      rfl
  · refine (report_clientIssued s.toPart (y.outcomeIssued code r d)).trans ?_
    rw [Part.clientIssued, outcomeIssued_bus, bus]
    rfl

/-- Settles O27. -/
theorem parameterReadCarriesOut : Obligations.ParameterReadCarriesOut := by
  intro s a code data high port kind busy answered
  have fault := parameterRead_fault port kind busy data
  have okay := parameterRead_okay port kind busy data
  have calm : s.noConditionRead →
      ∀ w ∈ lined ((heldParameters s.bus.waiting).map (·.id)) s.bus.waiting, w.wait ≠ .cond := lined_noConditionRead _ _
  refine ⟨?_, fun timing whole => ?_, fun ok why held quiet => ?_⟩
  · rw [releaseParameters_eq] at fault
    have e := event_leaves (.parameterReadAnswered false data) s _ rfl high
    rw [fault, outcomeIssued_withLine] at e
    exact leaves_of_withLine e calm
  · subst timing
    rw [releaseParameters_eq, carryOut_setTiming, ← whole, padTo_of_length, p16_toNat data 0 (by omega),
      p16_toNat data 2 (by omega)] at okay
    have e := conclude_leaves (c := .parameterReadAnswered true data) rfl high okay rfl
    rw [timed_outcomeIssued_withLine] at e
    exact leaves_of_withLine e calm
  · cases ok with
    | false => exact held_go_on s false data _ code .parameter 0 high held fault rfl
    | true =>
      obtain rfl := why.resolve_left (by decide)
      rw [carryOut_setTiming, conclude_some, settle_quiet, compose_busy _ 0x02 .outcome] at okay
      · exact held_go_on s true data _ 0x02 .accepted _ high held okay rfl
      · rfl
      · rw [releaseParameters_eq]
        exact quiet

end Sys2Proof.Machine
end

section
/-! SUPPORT. Span images written and read (R38, R125, R127). Settles O53. -/

namespace Sys2Proof.Machine

/-! ## A directive whose outcome comes later (R180) -/

theorem directive_taken (s : Part) (code : Nat) (f : Part → Judged) (h : s.takes code) :
    s.directive code f = Part.conclude s (chooseAgain s (f (s.judging code)) (code == 0x54)) (f (s.judging code)) := by
  unfold Part.directive
  rcases h.2 with ready | pending
  · rw [ready]
  · simp [pending]

/-- A directive that is carried out without an outcome yet has its effect alone, with nothing for the lanes to settle. -/
theorem directive_begun (s : State) (code : Nat) (f : Part → Judged) (x : Part) (h : s.toPart.takes code)
    (hx : f (s.toPart.judging code) = (x, none)) (quiet : x.quiet = true) : s.toPart.directive code f = x := by
  rw [directive_taken s.toPart code f h, hx]
  exact settle_quiet _ _ _ quiet

/-- Behind a busy port the end of an event leaves the own line, but for updates of the Status Block. -/
theorem report_ownLine (old s : Part) (busy : s.bus.port ≠ none) :
    ∃ u, (report old s).bus.ownLine = s.bus.ownLine ++ u := by
  obtain ⟨u, e, _⟩ := writeSections_ownLine old s
  have same : ((Part.writeSections old s).deliver).bus.port = s.bus.port := writeSections_port old s
  have granted : (report old s).bus.ownLine = (Part.writeSections old s).deliver.grant.bus.ownLine := rfl
  refine ⟨u, ?_⟩
  rcases grant_cases (Part.writeSections old s).deliver with ⟨g, _⟩ | ⟨_, _, _, free, _⟩ | ⟨_, _, free, _⟩
  · rw [granted, g]
    exact e
  · exact absurd (same.symm.trans free) busy
  · exact absurd (same.symm.trans free) busy

/-- A command that begins a span transfer: its accesses join the own line, and the slot stays BUSY. -/
theorem transfer_begins (c : Instr) (s : State) (code : Nat) (f : Part → Judged) (st : Stage) (as : List OwnAccess)
    (e : exec c s = event s (fun p => p.directive code f)) (h : s.toPart.takes code) (busy : s.bus.port ≠ none)
    (hx : f (s.toPart.judging code) = ((s.toPart.setDirSlot (.busy code false st)).pushOwn as, none)) (quiet : s.quiet = true) :
    ∃ (t : State) (rest : List OwnAccess), exec c s = .next t ∧ t.pending = s.pending
      ∧ t.blocks = (s.toPart.setDirSlot (.busy code false st)).blocks ∧ t.bus.ownLine = s.bus.ownLine ++ as ++ rest := by
  have effect := directive_begun s code f _ h hx quiet
  have next := event_next s (fun p => p.directive code f) h.1
  simp only [effect] at next
  obtain ⟨rest, line⟩ := report_ownLine s.toPart ((s.toPart.setDirSlot (.busy code false st)).pushOwn as) busy
  exact ⟨_, rest, e.trans next, rfl, report_blocks _ _, line⟩

theorem exportSpan_begins (s : Part) (addr : Nat) (aligned : addr % 64 = 0) (fits : addr + 64 + 512 * s.span.length ≤ 2 ^ 32)
    (apart : ∀ r ∈ s.areaRange :: s.windowRanges none ++ s.poolRange, overlaps addr (64 + 512 * s.span.length) r.1 r.2 = false) :
    (s.judging 0x70).exportSpan addr = ((s.setDirSlot (.busy 0x70 false (.exporting s.span.length))).pushOwn
      (writeBursts (fun last => .spanWrite last) addr (spanImage s.span)), none) := by
  have shares : sharesAny addr (64 + 512 * s.span.length) (s.areaRange :: s.windowRanges none ++ s.poolRange) = false :=
    (sharesAny_false _ _ _).mpr apart
  have good : ¬ (addr % 64 ≠ 0 ∨ 2 ^ 32 < addr + (64 + 512 * s.span.length)) := by omega
  exact (if_neg good).trans (if_neg (by rw [Bool.not_eq_true]; exact shares))

theorem importSpan_begins (s : Part) (addr : Nat) (aligned : addr % 64 = 0) (fits : addr + 64 ≤ 2 ^ 32) (idle : s.anyWork = false) :
    (s.judging 0x71).importSpan addr
      = ((s.setDirSlot (.busy 0x71 false (.importing addr []))).pushOwn [readBurst (.spanRead true) addr 8], none) := by
  have good : ¬ (addr % 64 ≠ 0 ∨ 2 ^ 32 < addr + 64) := by omega
  exact (if_neg good).trans (if_neg (by rw [Bool.not_eq_true]; exact idle))

theorem anyWork_false (s : Part)
    (h : ∀ k, (s.lane k).run.isOpen = false ∧ (s.lane k).restore = none ∧ (s.lane k).verify = none) : s.anyWork = false := by
  obtain ⟨open0, restore0, verify0⟩ := h .l0
  obtain ⟨open1, restore1, verify1⟩ := h .l1
  simp [Part.anyWork, open0, restore0, verify0, open1, restore1, verify1]

/-! ## Location records of imported labels (R127) -/

/-- A fold of updates of different elements by `f` is `f` at each of them. -/
theorem foldl_set_getElem {α : Type} {n : Nat} (f : α → α) (ps : List (Fin n)) (v : Vector α n) (nodup : ps.Nodup) (q : Fin n) :
    (ps.foldl (fun v p => v.set p (f v[p])) v)[q] = if q ∈ ps then f v[q] else v[q] := by
  induction ps generalizing v with
  | nil => simp
  | cons p ps ih =>
    obtain ⟨fresh, nodup⟩ := List.nodup_cons.mp nodup
    rw [List.foldl_cons, ih _ nodup]
    by_cases here : q = p
    · subst here
      simp [fresh]
    · have other : p.val ≠ q.val := fun e => here (Fin.ext e.symm)
      simp [here, other]

theorem foldl_set_eq_map {α : Type} {n : Nat} (f : α → α) (v : Vector α n) :
    (List.finRange n).foldl (fun v p => v.set p (f v[p])) v = v.map f := by
  refine Vector.ext fun i small => ?_
  have at' := foldl_set_getElem f (List.finRange n) v (List.nodup_finRange n) ⟨i, small⟩
  rw [if_pos (List.mem_finRange _)] at at'
  simpa using at'

/-- A location record of a label that the table `t` holds takes that entry's state (R127). -/
def markedBy (t : List SpanEntry) (r : LocRecord) : LocRecord :=
  match r.label.bind (fun l => t.find? (fun e => e.label == l)) with
  | some e => { r with state := some e.mirror }
  | none => r

/-- The part with the table `t` in the Span Table's place and its states in the map (R127). -/
def Part.withTable (s : Part) (t : List SpanEntry) : Part :=
  { s with span := t, library := { s.library with records := s.library.records.map (markedBy t) } }

/-- One step of the marking of the map from the Span Table (R127). -/
def Part.markFromSpan (s : Part) (p : Loc) : Part :=
  match (s.loc p).label.bind s.findSpan with
  | some e => s.setLoc p { s.loc p with state := some e.mirror }
  | none => s

theorem setLoc_loc (s : Part) (p : Loc) : s.setLoc p (s.loc p) = s := by
  have same : s.library.records.set p (s.loc p) = s.library.records := Vector.set_getElem_self _
  exact congrArg (fun v => { s with library := { s.library with records := v } }) same

theorem markFromSpan_eq (s : Part) (p : Loc) : s.markFromSpan p = s.setLoc p (markedBy s.span (s.loc p)) := by
  have found : (s.loc p).label.bind s.findSpan = (s.loc p).label.bind (fun l => s.span.find? (fun e => e.label == l)) := rfl
  unfold Part.markFromSpan markedBy
  rw [found]
  split
  · rfl
  · exact (setLoc_loc s p).symm

theorem foldl_markFromSpan (s : Part) : locs.foldl Part.markFromSpan s = s.withTable s.span := by
  have step : ∀ (ps : List Loc) (s : Part), ps.foldl Part.markFromSpan s = { s with library := { s.library with
      records := ps.foldl (fun v (p : Loc) => v.set p (markedBy s.span v[p])) s.library.records } } := by
    intro ps
    induction ps with
    | nil => exact fun _ => rfl
    | cons p ps ih =>
      intro s
      rw [List.foldl_cons, ih, markFromSpan_eq]
      rfl
  rw [step]
  exact congrArg (fun v => { s with library := { s.library with records := v } }) (foldl_set_eq_map (markedBy s.span) _)

/-! ## An image read back (R126, R127) -/

theorem allSome_map_some {α : Type} (xs : List α) : allSome (xs.map some) = some xs := by
  induction xs with
  | nil => rfl
  | cons x xs ih => rw [List.map_cons, allSome, ih]; rfl

theorem readEntry_label (b : List Byte) (e : SpanEntry) (h : readEntry b = some e) : e.label = labelAt b 0 := by
  unfold readEntry at h
  dsimp only at h
  split at h
  · cases h
  · split at h
    · split at h
      · cases h
        rfl
      · cases h
    · cases h

section Image
variable {image : List Byte} {es : List SpanEntry} (entries : ∀ i, i < es.length → readEntry (slice image (64 + 512 * i) 512) = es[i]?)
include entries

theorem imageEntries_read : (imageEntries es.length image).map readEntry = es.map some := by
  refine List.ext_getElem (by simp [imageEntries]) fun i small small' => ?_
  have inside : i < es.length := by simpa using small'
  simpa [imageEntries, List.getElem?_eq_getElem inside] using entries i inside

theorem imageEntries_labels : (imageEntries es.length image).map (fun b => labelAt b 0) = es.map (·.label) := by
  refine List.ext_getElem (by simp [imageEntries]) fun i small small' => ?_
  have inside : i < es.length := by simpa using small'
  have label := readEntry_label _ es[i] ((entries i inside).trans (List.getElem?_eq_getElem inside))
  simpa [imageEntries] using label.symm

theorem readImage_entries (nodup : (es.map (·.label)).Nodup) : readImage es.length image = some es := by
  unfold readImage
  rw [imageEntries_read entries, allSome_map_some]
  exact if_pos nodup

/-- A whole image with every held label of the table in it becomes the table (R127). -/
theorem importImage_takes (s : Part) (nodup : (es.map (·.label)).Nodup)
    (held : ∀ l ∈ s.library.holds, s.findSpan l ≠ none → l ∈ es.map (·.label)) :
    s.importImage es.length image
      = (s.withTable (es.map (fun e => if e.mirror = .opened then { e with mirror := .interrupted } else e))).accepted es.length := by
  have missing : s.holdMissing (es.map (·.label)) = false := by
    rw [Part.holdMissing, List.any_eq_false]
    intro l m
    cases found : s.findSpan l with
    | none => simp
    | some e => simpa using held l m (by rw [found]; exact nofun)
  unfold Part.importImage
  rw [imageEntries_labels entries, missing, if_neg Bool.false_ne_true, readImage_entries entries nodup]
  exact congrArg (Part.accepted · es.length) (foldl_markFromSpan _)

end Image

theorem importRead_refused (s : Part) (addr : Nat) (image : List Byte)
    (bad : image.take 4 ≠ markerImage ∨ 32 < (byteAt image 4).toNat) : s.importRead addr image true = s.refused .parameter :=
  if_pos (bad.elim .inl fun many => .inr (.inl many))

theorem importRead_whole (s : Part) (addr : Nat) (image : List Byte) (marker : image.take 4 = markerImage)
    (few : (byteAt image 4).toNat ≤ 32) (whole : image.length = 64 + 512 * (byteAt image 4).toNat)
    (fits : addr + 64 + 512 * (byteAt image 4).toNat ≤ 2 ^ 32) :
    s.importRead addr image true = s.importImage (byteAt image 4).toNat image := by
  have good : ¬ (image.take 4 ≠ markerImage ∨ 32 < (byteAt image 4).toNat ∨ 2 ^ 32 < addr + 64 + 512 * (byteAt image 4).toNat) := by
    rintro (other | many | past)
    · exact other marker
    · omega
    · omega
  have read : ¬ (image.length = 64 ∧ (byteAt image 4).toNat ≠ 0) := by omega
  exact (if_neg good).trans (if_neg read)

/-! ## Answers to span accesses (R38) -/

/-- A part with the answered access off the port and an outcome's write issued. -/
theorem outcomeIssued_leaves {c : Instr} {s : State} {f : Part → Part} {x : Part} {code : Nat} {st : Stage} {r : Result} {d : Nat}
    (e : exec c s = event s f) (high : s.pins.resetLow = false) (effect : f s.toPart = x.compose r d)
    (busy : x.unit.slot = .busy code false st) : Leaves c s (x.outcomeIssued code r d) := by
  have leaves := event_leaves c s f e high
  rwa [effect, compose_busy x code st r d busy] at leaves

/-- Whether an own access is a write of a span image. -/
def OwnKind.isSpanWrite : OwnKind → Bool
  | .spanWrite _ => true
  | _ => false

/-- The own line without the writes of a span image (R38). -/
def otherAccesses (as : List OwnAccess) : List OwnAccess :=
  as.filter (fun y => match y.kind with
    | .spanWrite _ => false
    | _ => true)

theorem dropSpanWrites_eq (s : Part) : s.freePort.dropOwn OwnKind.isSpanWrite
    = ({ s with bus := { s.bus with ownLine := otherAccesses s.bus.ownLine } } : Part).freePort := by
  have same : s.bus.ownLine.filter (fun y => !y.kind.isSpanWrite) = otherAccesses s.bus.ownLine :=
    List.filter_congr fun y _ => by cases y.kind <;> rfl
  exact congrArg (fun l => ({ s with bus := { s.bus with ownLine := l } } : Part).freePort) same

/-- Settles O53. -/
theorem spanTransfersStart : Obligations.SpanTransfersStart := by
  refine ⟨fun s addr port => ⟨fun h aligned fits apart quiet => ?_, fun h aligned fits idle quiet => ?_, fun odd => ⟨fun h => ?_, fun h => ?_⟩⟩,
    fun s a n last data high port kind busy => ?_, fun s a addr old data high port kind busy whole => ?_⟩
  · exact transfer_begins (.exportSpan addr) s 0x70 _ _ _ rfl h port (exportSpan_begins s.toPart addr.toNat aligned fits apart) quiet
  · exact transfer_begins (.importSpan addr) s 0x71 _ _ _ rfl h port
      (importSpan_begins s.toPart addr.toNat aligned fits (anyWork_false s.toPart idle)) quiet
  · exact judges_refused (c := .exportSpan addr) rfl h (if_pos (.inl odd))
  · exact judges_refused (c := .importSpan addr) rfl h (if_pos (.inl odd))
  · intro answered
    have busy' : s.freePort.unit.slot = .busy 0x70 false (.exporting n) := busy
    refine ⟨fun done => ?_, ?_⟩
    · subst done
      have effect : s.ownAnswered (fun _ => true) true data = s.freePort.compose .accepted n := by
        rw [ownAnswered_spanWrite port true data kind rfl, Part.spanWriteAnswered, busy']
        rfl
      exact outcomeIssued_leaves (c := .ownAccessAnswered true data) rfl high effect busy'
    · have effect : s.ownAnswered (fun _ => true) false data = (s.freePort.dropOwn OwnKind.isSpanWrite).compose .parameter 0 := by
        rw [ownAnswered_spanWrite port false data kind rfl, Part.spanWriteAnswered, busy']
        rfl
      have leaves := outcomeIssued_leaves (c := .ownAccessAnswered false data) rfl high effect busy'
      rw [dropSpanWrites_eq] at leaves
      exact leaves
  · intro image n answered
    have busy' : s.freePort.unit.slot = .busy 0x71 false (.importing addr old) := busy
    have effect : s.ownAnswered (fun _ => true) true data = Part.conclude s.freePort false (s.freePort.importRead addr image true) := by
      rw [ownAnswered_spanRead port true data kind rfl, Part.spanReadAnswered, busy']
      have same : padTo (8 * a.beats) data = data := whole ▸ padTo_of_length data
      rw [same]
      rfl
    refine ⟨fun bad => ?_, fun es marker few long fits count entries nodup held => ?_⟩
    · rw [importRead_refused _ _ _ bad] at effect
      exact conclude_leaves (c := .ownAccessAnswered true data) rfl high effect busy'
    · rw [importRead_whole _ _ _ marker few long fits] at effect
      rw [show (byteAt image 4).toNat = es.length from count.symm,
        importImage_takes (fun i small => entries i (count ▸ small)) s.freePort nodup held] at effect
      exact count ▸ conclude_leaves (c := .ownAccessAnswered true data) rfl high effect busy'

end Sys2Proof.Machine
end

section
/-! SUPPORT. Sections of the Status Block written, and own accesses answered (R37, R38, R185). Settles O23. -/

namespace Sys2Proof.Machine

/-! ## A section's update state -/

/-- The update state that the Status Block holds of a section. -/
abbrev Part.entry (s : Part) (x : Section) : Option SectionState := s.status.find? (fun t => t.sec == x)

theorem entry_sec {s : Part} {x : Section} {t : SectionState} (h : s.entry x = some t) : t.sec = x := by
  simpa using List.find?_some h

theorem sectionState_of_entry {s : Part} {x : Section} {t : SectionState} (h : s.entry x = some t) : s.sectionState x = t := by
  simp [Part.sectionState, h]

theorem setSection_entry (s : Part) (t : SectionState) (x : Section) :
    (s.setSection t).entry x = (s.entry x).map (fun u => if u.sec = t.sec then t else u) :=
  find_map_section s.status _ (fun u => by split <;> simp_all) x

theorem setSection_entry_same {s : Part} {x : Section} {t u : SectionState} (h : s.entry x = some u) (sec : t.sec = x) :
    (s.setSection t).entry x = some t := by
  rw [setSection_entry, h, Option.map_some, if_pos ((entry_sec h).trans sec.symm)]

theorem setSection_entry_other (s : Part) {x : Section} {t : SectionState} (other : t.sec ≠ x) :
    (s.setSection t).entry x = s.entry x := by
  rw [setSection_entry]
  cases h : s.entry x with
  | none => rfl
  | some u => rw [Option.map_some, if_neg (fun e => other (e.symm.trans (entry_sec h)))]

/-! ## One section written (R185) -/

/-- The writes of an update of a section that raises the count to `n`. -/
def Part.update (s : Part) (x : Section) (n : Nat) : List OwnAccess :=
  writeBursts (fun last => .status x last) (0x1000000 * s.pins.dab.toNat + x.place.1) (leBytes 4 n ++ s.sectionBody x ++ leBytes 4 n)

/-- An update of a section is issued, raising its count from `n` (R185). -/
def Part.issuedUpdate (s : Part) (x : Section) (n : Nat) : Prop :=
  s.entry x = some ⟨x, (n + 1) % 2 ^ 32, true, false⟩
    ∧ ∃ before after, s.ownIssued = before ++ s.update x ((n + 1) % 2 ^ 32) ++ after

theorem sectionBody_blocks (s : Part) (x : Section) : s.blocks.sectionBody x = s.sectionBody x := by cases x <;> rfl

theorem update_blocks (s : Part) (x : Section) (n : Nat) : s.blocks.update x n = s.update x n := by
  unfold Part.update
  rw [sectionBody_blocks]
  rfl

theorem update_of_blocks {s t : Part} (h : t.blocks = s.blocks) (x : Section) (n : Nat) : t.update x n = s.update x n := by
  rw [← update_blocks, h, update_blocks]

theorem writeSection_entry_other (s : Part) {x y : Section} (other : y ≠ x) : (s.writeSection y).entry x = s.entry x := by
  have sec : (s.sectionState y).sec ≠ x := by rwa [sectionState_sec]
  unfold Part.writeSection
  dsimp only
  split
  · exact setSection_entry_other s sec
  · exact setSection_entry_other s sec

theorem writeSection_stale {s : Part} {x : Section} {n : Nat} {stale : Bool} (h : s.entry x = some ⟨x, n, true, stale⟩) :
    (s.writeSection x).entry x = some ⟨x, n, true, true⟩ := by
  unfold Part.writeSection
  rw [sectionState_of_entry h]
  exact setSection_entry_same h rfl

theorem writeSection_issues {s : Part} {x : Section} {n : Nat} {stale : Bool} (h : s.entry x = some ⟨x, n, false, stale⟩) :
    (s.writeSection x).entry x = some ⟨x, (n + 1) % 2 ^ 32, true, false⟩
    ∧ (s.writeSection x).ownIssued = s.ownIssued ++ s.update x ((n + 1) % 2 ^ 32) := by
  have issues : s.writeSection x = s.issue x := by
    unfold Part.writeSection
    rw [sectionState_of_entry h]
    rfl
  rw [issues, Part.issue, sectionState_of_entry h]
  exact ⟨setSection_entry_same h rfl, pushOwn_ownIssued _ _⟩

/-! ## The sections of an event written (R185) -/

theorem foldl_entry_other (xs : List Section) (s : Part) {x : Section} (absent : x ∉ xs) :
    (xs.foldl Part.writeSection s).entry x = s.entry x := by
  induction xs generalizing s with
  | nil => rfl
  | cons y ys ih =>
    obtain ⟨other, absent⟩ := not_or.mp (List.mem_cons.not.mp absent)
    rw [List.foldl_cons, ih _ absent, writeSection_entry_other s (Ne.symm other)]

theorem foldl_blocks (xs : List Section) (s : Part) : (xs.foldl Part.writeSection s).blocks = s.blocks :=
  foldl_view Part.blocks Part.writeSection writeSection_blocks xs s

/-- A section among those written: issued when no update of it is unanswered, else marked stale. -/
theorem foldl_writes (xs : List Section) (s : Part) {x : Section} {n : Nat} {unanswered stale : Bool} (nodup : xs.Nodup)
    (mem : x ∈ xs) (h : s.entry x = some ⟨x, n, unanswered, stale⟩) :
    (unanswered = false → (xs.foldl Part.writeSection s).issuedUpdate x n)
    ∧ (unanswered = true → (xs.foldl Part.writeSection s).entry x = some ⟨x, n, true, true⟩) := by
  obtain ⟨ys, zs, rfl⟩ := List.append_of_mem mem
  obtain ⟨_, tail, apart⟩ := List.nodup_append.mp nodup
  have early : x ∉ ys := fun m => apart x m x List.mem_cons_self rfl
  have late : x ∉ zs := (List.nodup_cons.mp tail).1
  rw [List.foldl_append, List.foldl_cons]
  have h' := (foldl_entry_other ys s early).trans h
  generalize ys.foldl Part.writeSection s = q at h'
  have entry := foldl_entry_other zs (q.writeSection x) late
  constructor
  · rintro rfl
    obtain ⟨state, issued⟩ := writeSection_issues h'
    obtain ⟨updates, all, _⟩ := foldl_issued zs (q.writeSection x)
    have blocks : (zs.foldl Part.writeSection (q.writeSection x)).blocks = q.blocks :=
      (foldl_blocks zs _).trans (writeSection_blocks q x)
    refine ⟨entry.trans state, q.ownIssued, updates, ?_⟩
    rw [all, issued, List.append_nil, update_of_blocks blocks]
  · rintro rfl
    exact entry.trans (writeSection_stale h')

theorem mem_allSections (x : Section) : x ∈ allSections := by
  cases x with
  | stream i => revert i; decide
  | lane k => cases k <;> decide
  | restore k => cases k <;> decide
  | verify k => cases k <;> decide
  | pool => decide
  | changer => decide
  | map => decide
  | path => decide
  | unit => decide

theorem allSections_nodup : allSections.Nodup := by decide

/-- The section is written at the end of an event that came to `s`. -/
def writes (old s : Part) (x : Section) : Bool := s.touched.contains x || sectionChanged old s x

section Report
variable (old s : Part) (x : Section)

theorem report_entry : (report old s).entry x = (Part.writeSections old s).entry x := by
  have granted : ∀ q : Part, q.grant.status = q.status := fun q => by
    obtain ⟨e, _⟩ | ⟨_, _, _, _, _, _, e⟩ | ⟨_, _, _, _, _, e⟩ := grant_cases q <;> rw [e]
  exact congrArg (List.find? _) (granted (Part.writeSections old s).deliver)

theorem report_ownIssued : (report old s).ownIssued = (Part.writeSections old s).ownIssued := grant_ownIssued _

/-- A section that is not written keeps its update state. -/
theorem report_skips (skips : writes old s x = false) : (report old s).entry x = s.entry x := by
  rw [report_entry]
  exact foldl_entry_other _ { s with touched := [], rose := 0 }
    fun m => Bool.false_ne_true (skips.symm.trans (List.mem_filter.mp m).2)

/-- A section that is written: issued when no update of it is unanswered, else marked stale. -/
theorem report_writes {n : Nat} {unanswered stale : Bool} (written : writes old s x = true)
    (h : s.entry x = some ⟨x, n, unanswered, stale⟩) :
    (unanswered = false → (report old s).issuedUpdate x n)
    ∧ (unanswered = true → (report old s).entry x = some ⟨x, n, true, true⟩) := by
  have both := foldl_writes (allSections.filter (writes old s)) { s with touched := [], rose := 0 } (allSections_nodup.filter _)
    (List.mem_filter.mpr ⟨mem_allSections x, written⟩) h
  refine ⟨fun answered => ?_, fun unanswered => (report_entry old s x).trans (both.2 unanswered)⟩
  obtain ⟨entry, before, after, issued⟩ := both.1 answered
  refine ⟨(report_entry old s x).trans entry, before, after, ?_⟩
  have blocks : (report old s).blocks = (Part.writeSections old s).blocks :=
    (report_blocks old s).trans (writeSections_blocks old s).symm
  rw [report_ownIssued, update_of_blocks blocks]
  exact issued

/-- What a section shows is of the blocks. -/
theorem sectionChanged_blocks (s : Part) : sectionChanged old s.blocks x = sectionChanged old s x := by cases x <;> rfl

theorem sectionChanged_of_blocks (same : s.blocks = old.blocks) : sectionChanged old s x = false := by
  rw [← sectionChanged_blocks, same, sectionChanged_blocks]
  cases x <;> simp [sectionChanged]

theorem sectionChanged_report (first : Part) : sectionChanged old (report first s) x = sectionChanged old s x := by
  rw [← sectionChanged_blocks, report_blocks, sectionChanged_blocks]

end Report

/-! ## The arbiter (R37) -/

section Grant
variable {s : Part} (port : s.bus.port = none)
include port

theorem grant_idle (client : s.bus.clientLine = []) (own : s.bus.ownLine = []) : s.grant = s := by
  simp [Part.grant, port, client, own]

theorem grant_client {j : Nat} {t : Txn} {rest : List (Nat × Txn)} (client : s.bus.clientLine = (j, t) :: rest)
    (turn : s.bus.ownLine = [] ∨ s.bus.lastServed = .own) :
    s.grant = { s with bus := { s.bus with clientLine := rest, port := some (.client j t), lastServed := .client } } := by
  unfold Part.grant
  rw [port, client]
  cases own : s.bus.ownLine with
  | nil => rfl
  | cons b more => simp [turn.resolve_left (by simp [own])]

theorem grant_own {b : OwnAccess} {rest : List OwnAccess} (own : s.bus.ownLine = b :: rest)
    (turn : s.bus.clientLine = [] ∨ s.bus.lastServed = .client) :
    s.grant = { s with bus := { s.bus with ownLine := rest, port := some (.own b false), lastServed := .own } } := by
  unfold Part.grant
  rw [port, own]
  cases client : s.bus.clientLine with
  | nil => rfl
  | cons x more => simp [turn.resolve_left (by simp [client])]

end Grant

/-- An event that has no section written ends with the arbiter's choice from the port and the lines before. -/
theorem report_grants (old s : Part) (unwritten : ∀ x, writes old s x = false) :
    ∃ q : Part, (report old s).bus = q.grant.bus ∧ q.bus.port = s.bus.port ∧ q.bus.clientLine = s.bus.clientLine
      ∧ q.bus.ownLine = s.bus.ownLine ∧ q.bus.lastServed = s.bus.lastServed := by
  have empty : allSections.filter (writes old s) = [] := List.filter_eq_nil_iff.mpr fun x _ => by simp [unwritten x]
  exact ⟨({ s with touched := [], rose := 0 } : Part).deliver,
    congrArg (fun xs => ((xs.foldl Part.writeSection { s with touched := [], rose := 0 }).deliver.grant).bus) empty, rfl, rfl, rfl, rfl⟩

section Chooses
variable {old s : Part} (unwritten : ∀ x, writes old s x = false) (port : s.bus.port = none)
include unwritten port

theorem report_idle (client : s.bus.clientLine = []) (own : s.bus.ownLine = []) : (report old s).bus.port = none := by
  obtain ⟨q, bus, port', client', own', -⟩ := report_grants old s unwritten
  rw [bus, grant_idle (port'.trans port) (client'.trans client) (own'.trans own)]
  exact port'.trans port

theorem report_client {j : Nat} {t : Txn} {rest : List (Nat × Txn)} (client : s.bus.clientLine = (j, t) :: rest)
    (turn : s.bus.ownLine = [] ∨ s.bus.lastServed = .own) :
    (report old s).bus.port = some (.client j t) ∧ (report old s).bus.clientLine = rest
    ∧ (report old s).bus.ownLine = s.bus.ownLine ∧ (report old s).bus.lastServed = .client := by
  obtain ⟨q, bus, port', client', own', last'⟩ := report_grants old s unwritten
  rw [bus, grant_client (port'.trans port) (client'.trans client) (by rwa [own', last'])]
  exact ⟨rfl, rfl, own', rfl⟩

theorem report_own {b : OwnAccess} {rest : List OwnAccess} (own : s.bus.ownLine = b :: rest)
    (turn : s.bus.clientLine = [] ∨ s.bus.lastServed = .client) :
    (report old s).bus.port = some (.own b false) ∧ (report old s).bus.ownLine = rest
    ∧ (report old s).bus.clientLine = s.bus.clientLine ∧ (report old s).bus.lastServed = .own := by
  obtain ⟨q, bus, port', client', own', last'⟩ := report_grants old s unwritten
  rw [bus, grant_own (port'.trans port) (own'.trans own) (by rwa [client', last'])]
  exact ⟨rfl, rfl, client', rfl⟩

end Chooses

/-! ## Own accesses answered (R38, R185) -/

/-- A write of a pool block or of restore output answered OKAY does no more than free the port (R38). -/
theorem ownAnswered_write {s : Part} {a : OwnAccess} {k : LaneId} {n m : Nat} (data : List Byte)
    (port : s.bus.port = some (.own a false)) (kind : a.kind = .poolWrite k n m ∨ a.kind = .restoreOut k n) (quiet : s.quiet = true) :
    s.ownAnswered (fun _ => true) true data = s.freePort := by
  have settled : settle s s.freePort false = s.freePort := settle_quiet _ _ _ quiet
  rcases kind with kind | kind
  · simpa [Part.ownAnswered, port, kind, Part.poolWriteAnswered] using settled
  · simpa [Part.ownAnswered, port, kind, Part.outputAnswered] using settled

/-- The answer that ends an update leaves the blocks, and the section is neither unanswered nor stale (R185). -/
theorem endUpdate_eq {s : Part} {x : Section} {n : Nat} {stale : Bool} (h : s.entry x = some ⟨x, n, true, stale⟩) :
    (s.endUpdate x).entry x = some ⟨x, n, false, false⟩ ∧ (s.endUpdate x).blocks = s.blocks
    ∧ (s.endUpdate x).touched = if stale then s.touched ++ [x] else s.touched := by
  unfold Part.endUpdate
  rw [sectionState_of_entry h]
  have entry : (s.setSection ⟨x, n, false, false⟩).entry x = some ⟨x, n, false, false⟩ := setSection_entry_same h rfl
  cases stale
  · exact ⟨entry, rfl, rfl⟩
  · exact ⟨entry, rfl, rfl⟩

section Answered
variable {s : State} {a : OwnAccess} (high : s.pins.resetLow = false) (port : s.bus.port = some (.own a false))
include high port

theorem exec_ownWriteAnswered {k : LaneId} {n m : Nat} (data : List Byte) (kind : a.kind = .poolWrite k n m ∨ a.kind = .restoreOut k n)
    (quiet : s.quiet = true) :
    ∃ u : State, exec (.ownAccessAnswered true data) s = .next u ∧ u.pending = s.pending
      ∧ u.toPart = report s.toPart s.freePort :=
  ⟨_, event_next s _ high, rfl, congrArg (report s.toPart) (ownAnswered_write data port kind quiet)⟩

theorem exec_statusUpdateAnswered {x : Section} (kind : a.kind = .status x true) :
    ∃ u : State, exec (.statusUpdateAnswered true) s = .next u ∧ u.pending = s.pending
      ∧ u.toPart = report s.toPart (s.freePort.endUpdate x) :=
  ⟨_, event_next s _ high, rfl, congrArg (report s.toPart) (ownAnswered_status port true [] kind rfl)⟩

end Answered

/-- Freeing the port has no section written. -/
theorem writes_freePort {s : Part} (untouched : s.touched = []) (x : Section) : writes s s.freePort x = false := by
  have free : s.freePort.touched = [] := untouched
  rw [writes, sectionChanged_of_blocks s s.freePort x rfl, free]
  rfl

/-- The end of an update has its section written just where it was stale (R185). -/
theorem writes_endUpdate {s : Part} {x : Section} {n : Nat} {stale : Bool} (h : s.entry x = some ⟨x, n, true, stale⟩)
    (untouched : s.touched = []) : writes s (s.freePort.endUpdate x) x = stale := by
  obtain ⟨-, blocks, touched⟩ := endUpdate_eq (s := s.freePort) h
  have free : s.freePort.touched = [] := untouched
  rw [writes, sectionChanged_of_blocks s _ x blocks, touched, free]
  cases stale
  · rfl
  · simp

/-! ## A section whose owner shows another state (R185) -/

/-- A section that an event changes is issued when no update of it is unanswered, else marked stale or issued (R185). -/
theorem exec_writes_changed {s t : State} {c : Instr} {x : Section} {n : Nat} {unanswered stale : Bool}
    (notLow : c ≠ .resetnLow) (notHigh : ∀ d a l, c ≠ .resetnHigh d a l) (e : exec c s = .next t)
    (h : s.entry x = some ⟨x, n, unanswered, stale⟩) (changed : sectionChanged s.toPart t.toPart x = true) :
    (unanswered = false → t.issuedUpdate x n) ∧ (unanswered = true → t.entry x = some ⟨x, n, true, true⟩ ∨ t.issuedUpdate x n) := by
  obtain ⟨f, hf, keeps⟩ := exec_effect c notLow notHigh
  rw [hf] at e
  obtain rfl | ⟨high, part⟩ := event_cases e
  · exact absurd changed (by simp [sectionChanged_of_blocks t.toPart t.toPart x rfl])
  · rw [part, sectionChanged_report] at changed
    obtain ⟨unanswered', stale', h', answered⟩ := (keeps s.toPart high).keepsRanges.sections x n unanswered stale h
    have written : writes s.toPart (f s.toPart) x = true := by rw [writes, changed, Bool.or_true]
    obtain ⟨issues, marks⟩ := report_writes s.toPart (f s.toPart) x written h'
    rw [part]
    refine ⟨fun free => issues (answered free), fun _ => ?_⟩
    cases unanswered' with
    | false => exact .inr (issues rfl)
    | true => exact .inl (marks rfl)

/-- Settles O23: an own write does no more than free the port, an update's last answer ends it, and a section that changed is
written by `exec_writes_changed`. -/
theorem ownAccessesAnswered : Obligations.OwnAccessesAnswered := by
  refine ⟨fun s a k n m data high port kind quiet untouched => ?_, fun s a x n stale high port kind h untouched => ?_,
    fun s t c x n unanswered stale _ notLow notHigh e h shows => ?_⟩
  · obtain ⟨u, next, pending, part⟩ := exec_ownWriteAnswered high port data kind quiet
    have unwritten := writes_freePort untouched
    have free : s.freePort.bus.port = none := rfl
    have idle := report_idle unwritten free
    have client := fun j t rest => report_client unwritten free (j := j) (t := t) (rest := rest)
    have own := fun b rest => report_own unwritten free (b := b) (rest := rest)
    have latched := report_keeps_latched s.toPart s.freePort
    refine ⟨u, next, pending, ?_⟩
    rw [part]
    exact ⟨report_blocks _ _, latched, idle, client, own⟩
  · obtain ⟨u, next, pending, part⟩ := exec_statusUpdateAnswered high port kind
    obtain ⟨entry, blocks, -⟩ := endUpdate_eq (s := s.freePort) h
    have written := writes_endUpdate h untouched
    have ended : stale = false → u.entry x = some ⟨x, n, false, false⟩ := by
      rintro rfl
      rw [part]
      exact (report_skips _ _ x written).trans entry
    have again : stale = true → u.issuedUpdate x n := by
      rintro rfl
      rw [part]
      exact (report_writes _ _ x written entry).1 rfl
    exact ⟨u, next, pending, part ▸ (report_blocks _ _).trans blocks, ended, again⟩
  · refine exec_writes_changed notLow notHigh e h ?_
    cases x with
    | stream i => simpa [sectionChanged] using shows
    | lane k => simp only [sectionChanged, Bool.or_eq_true, bne_iff_ne]; tauto
    | pool => simpa [sectionChanged] using shows
    | changer => simpa [sectionChanged] using shows
    | map => simpa [sectionChanged] using shows
    | restore k => simp only [sectionChanged, Bool.or_eq_true, bne_iff_ne]; exact .inl shows
    | verify k => simpa [sectionChanged] using shows
    | path => simpa [sectionChanged] using shows
    | unit => simpa [sectionChanged] using shows

end Sys2Proof.Machine
end

section
/-! SUPPORT. The stream directives by the states of their stream (R42 to R46). Settles O35 and O36. -/

namespace Sys2Proof.Machine

/-! ## Operands that name a stream or a lane -/

theorem streamArg_ofNat (i : Fin 8) : streamArg (BitVec.ofNat 8 i.val) = some i := by
  have number : (BitVec.ofNat 8 i.val).toNat = i.val := by
    rw [BitVec.toNat_ofNat]
    omega
  have named : (BitVec.ofNat 8 i.val).toNat < 8 := number.trans_lt i.isLt
  rw [streamArg, dif_pos named]
  exact congrArg some (Fin.ext number)

theorem laneArg_ofNat (s : Part) (k : LaneId) (h : s.present k = true) : s.laneArg (BitVec.ofNat 8 k.num) = some k := by
  cases k with
  | l0 => rfl
  | l1 => exact (if_neg (by decide)).trans (if_pos ⟨rfl, h⟩)

/-! ## OPEN STREAM and OPEN RECORD -/

/-- OPEN STREAM of a stream and a present lane, by its checks in the order of R42. -/
theorem openStream_cases (s : Part) (i : Fin 8) (k : LaneId) (n : Nat) (present : s.present k = true)
    (owner : s.twin.on = false ∨ k = s.twin.primary) :
    let opens := s.openStream (BitVec.ofNat 8 i.val) (BitVec.ofNat 8 k.num) n
    let bad := (s.stream i).state ≠ .closed ∨ s.intakeSize i = 0 ∨ s.pool.geometry = none
    (bad → opens = s.refused .state)
    ∧ (¬ bad → opens = (s.setStream i { s.stream i with state := .idle, lane := some k, nextRecord := .num n }).accepted 0) := by
  intro opens bad
  have single : ¬ (s.twin.on = true ∧ k ≠ s.twin.primary) := by
    rintro ⟨on, other⟩
    rcases owner with off | primary
    · simp [off] at on
    · exact other primary
  simp only [opens, Part.openStream, streamArg_ofNat, laneArg_ofNat s k present]
  rw [if_neg single]
  exact ⟨fun b => if_pos b, fun g => if_neg g⟩

/-- OPEN RECORD of a stream, by its checks in the order of R43. -/
theorem openRecord_cases (s : Part) (i : Fin 8) (length : Nat) :
    let x := s.stream i
    let opens := s.openRecord (BitVec.ofNat 8 i.val) length
    (Config.maxRaw < length → opens = s.refused .parameter)
    ∧ (length ≤ Config.maxRaw → (x.state ≠ .idle → opens = s.refused .state)
      ∧ (x.state = .idle → x.nextRecord = .exhausted → opens = s.refused .limit)
      ∧ (∀ n, x.state = .idle → x.nextRecord = .num n → opens = (s.setStream i { x with
          state := .record, current := some n, nextRecord := if n = 2 ^ 32 - 1 then .exhausted else .num (n + 1)
          recTaken := 0, placed := 0, nextIndex := .num 0, declared := length, pack := Packing.empty }).accepted (n % 65536))) := by
  intro x opens
  simp only [opens, Part.openRecord, streamArg_ofNat]
  refine ⟨fun long => if_pos long, fun fits => ?_⟩
  rw [if_neg (Nat.not_lt.mpr fits)]
  refine ⟨fun busy => if_pos busy, fun idle last => ?_, fun n idle next => ?_⟩
  all_goals rw [if_neg (not_not_intro idle)]
  · simp only [x] at last
    rw [last]
  · simp only [x] at next
    rw [next]

/-- Settles O35: the checks of `openStream_cases` and `openRecord_cases`. -/
theorem openStreamAndRecord : Obligations.OpenStreamAndRecord := by
  intro s i k first length present b x
  refine ⟨fun h owner => ?_, fun h fits => ?_, fun h long => ?_⟩
  · obtain ⟨refused, taken⟩ := openStream_cases (s.judging 0x20) i k first.toNat present owner
    refine ⟨fun closed window pool => ?_, fun bad => ?_⟩
    · exact judges_of (c := .openStream b (BitVec.ofNat 8 k.num) first) rfl h
        (taken (not_or.mpr ⟨not_not_intro closed, not_or.mpr ⟨window, pool⟩⟩))
    · exact judges_refused (c := .openStream b (BitVec.ofNat 8 k.num) first) rfl h (refused bad)
  · obtain ⟨state, limit, taken⟩ := (openRecord_cases (s.judging 0x21) i length.toNat).2 fits
    refine ⟨fun n idle next => ?_, fun busy => ?_, fun idle last => ?_⟩
    · exact judges_of (c := .openRecord b length) rfl h (taken n idle next)
    · exact judges_refused (c := .openRecord b length) rfl h (state busy)
    · exact judges_refused (c := .openRecord b length) rfl h (limit idle last)
  · exact judges_refused (c := .openRecord b length) rfl h ((openRecord_cases (s.judging 0x21) i length.toNat).1 long)

/-! ## Segments closed -/

/-- The stream with its segment buffer CLOSED and its idle timer stopped (R51, R54). -/
def Stream.segmentClosed (x : Stream) (g : Segment) : Stream := { x with seg := .closed g, idle := none }

theorem offer_bound (s : Part) (i : Fin 8) (k : LaneId) (bound : (s.stream i).lane = some k) :
    s.offer i = s.setAsm k { s.asm k with offers := (s.asm k).offers ++ [i] } := by
  rw [Part.offer, bound]
  rfl

/-- An OPEN segment closes as non-last: it joins the offers of its stream's lane, and the stream's section is marked
(R51, R53, R54, R60). -/
theorem closeOpenSegment_filling (s : Part) (i : Fin 8) (g : Segment) (k : LaneId) (filling : (s.stream i).seg = .filling g)
    (bound : (s.stream i).lane = some k) :
    s.closeOpenSegment i = ((s.setStream i ((s.stream i).segmentClosed g)).setAsm k
      { s.asm k with offers := (s.asm k).offers ++ [i] }).touch (.stream i) := by
  have same : ((s.setStream i ((s.stream i).segmentClosed g)).touch (.stream i)).stream i = (s.stream i).segmentClosed g :=
    stream_setStream_same s i _
  rw [Part.closeOpenSegment, filling]
  exact offer_bound _ i k (same ▸ bound)

/-! ## END RECORD, FLUSH STREAM and CLOSE STREAM -/

/-- END RECORD of a stream with no write held: STATE without an open record; with one whose intake holds bytes the record is
ending (R44, R49). -/
theorem endRecord_cases (s : Part) (i : Fin 8) (alone : s.bus.waiting = []) :
    let ends := s.endRecord (BitVec.ofNat 8 i.val)
    ((s.stream i).state ≠ .record → ends = s.refused .state)
    ∧ ((s.stream i).state = .record → (s.stream i).intake ≠ [] →
        ends = (s.setStream i { s.stream i with state := .ending }).accepted 0) := by
  intro ends
  simp only [ends, Part.endRecord, streamArg_ofNat]
  refine ⟨fun closed => if_pos closed, fun record left => ?_⟩
  have taking : (s.setStream i { s.stream i with state := .ending }).endIfTaken i
      = s.setStream i { s.stream i with state := .ending } := by
    refine if_neg ?_
    rwa [stream_setStream_same]
  rw [if_neg (not_not_intro record), Part.modStream, taking, rejudge_of_no_waiting (s.setStream i _) i alone]

/-- FLUSH STREAM of a stream with an OPEN segment, and of one that is CLOSED or FAULTED (R45). -/
theorem flushStream_cases (s : Part) (i : Fin 8) :
    let flushes := s.flushStream (BitVec.ofNat 8 i.val)
    let bad := (s.stream i).state = .closed ∨ (s.stream i).state = .faulted
    (bad → flushes = s.refused .state)
    ∧ (∀ g k, ¬ bad → (s.stream i).seg = .filling g → (s.stream i).lane = some k →
        flushes = (((s.setStream i { (s.stream i).segmentClosed g with flush := true }).setAsm k
          { s.asm k with offers := (s.asm k).offers ++ [i] }).touch (.stream i)).accepted 0) := by
  intro flushes bad
  simp only [flushes, Part.flushStream, streamArg_ofNat]
  refine ⟨fun b => if_pos b, fun g k good filling bound => ?_⟩
  rw [if_neg good, filling, closeOpenSegment_filling s i g k filling bound]
  simp only [Part.modStream, touch_stream, setAsm_stream, stream_setStream_same]
  rw [← setStream_setStream s i ((s.stream i).segmentClosed g) { (s.stream i).segmentClosed g with flush := true }]
  rfl

/-- CLOSE STREAM of a stream with no write held (R46). -/
theorem closeStream_cases (s : Part) (i : Fin 8) (alone : s.bus.waiting = []) :
    let closes := s.closeStream (BitVec.ofNat 8 i.val)
    let rests := (s.stream i).state = .idle ∨ (s.stream i).state = .faulted
    (rests → closes = (s.setStream i Stream.blank).accepted 0) ∧ (¬ rests → closes = s.refused .state) := by
  intro closes rests
  simp only [closes, Part.closeStream, streamArg_ofNat]
  refine ⟨fun rest => ?_, fun busy => if_neg busy⟩
  rw [if_pos rest, rejudge_of_no_waiting (s.setStream i _) i alone]

theorem reset_stream (i : Fin 8) : State.reset.stream i = Stream.blank := by
  fin_cases i <;> rfl

/-- Settles O36: the checks of the three directives. -/
theorem streamDirectives : Obligations.StreamDirectives := by
  intro s i alone b x
  refine ⟨fun h => ?_, fun h => ?_, fun h => ?_⟩
  · obtain ⟨refused, ended⟩ := endRecord_cases (s.judging 0x22) i alone
    exact ⟨fun record left => judges_of (c := .endRecord b) rfl h (ended record left),
      fun other => judges_refused (c := .endRecord b) rfl h (refused other)⟩
  · obtain ⟨refused, flushed⟩ := flushStream_cases (s.judging 0x23) i
    exact ⟨fun g k opened running filling bound => judges_of_touched (c := .flushStream b) rfl h (.stream i)
        (flushed g k (not_or.mpr ⟨opened, running⟩) filling bound),
      fun bad => judges_refused (c := .flushStream b) rfl h (refused bad)⟩
  · obtain ⟨closed, refused⟩ := closeStream_cases (s.judging 0x24) i alone
    refine ⟨fun rests => ?_, fun idle faulted => ?_⟩
    · rw [reset_stream]
      exact judges_of (c := .closeStream b) rfl h (closed rests)
    · exact judges_refused (c := .closeStream b) rfl h (refused (not_or.mpr ⟨idle, faulted⟩))

end Sys2Proof.Machine
end

section
/-! SUPPORT. Open blocks closed (R79 to R81, R84), and the idle timers of streams and lanes (R54, R77). Settles O16. -/

namespace Sys2Proof.Machine

/-! ## A closed block's bytes (R80) -/

/-- Writes of block `x` into its buffer `b`, from an offset of the buffer's base on (R73, R80). -/
def Part.writeBlock (s : Part) (x : Buffer) (b base off : Nat) (bs : List Byte) : Part :=
  s.pushWrites (fun _ => .poolWrite x.origin b x.blk) (base + off) bs

/-- The fill of a closing block (R80). -/
def Buffer.fill (x : Buffer) : List Byte := zeros (32720 - x.used)

/-- The payload fold of a closed block (R80). -/
def Buffer.closedFold (x : Buffer) : Fold := x.fold.addAll x.fill

/-- The header of a closed block, not yet stamped (R80, R81). -/
def Buffer.closedHeader (x : Buffer) : List Byte :=
  [0x4B, 0x44, 0x53, 0x42, 2, 0, 0, byteOf x.segments] ++ zeros 16 ++ leBytes 2 x.used ++ zeros 6

/-- The trailer of a closed block, not yet stamped (R80, R81). -/
def Buffer.closedTrailer (x : Buffer) : List Byte :=
  leBytes 4 x.closedFold.value ++ zeros 4 ++ [0x4B, 0x44, 0x53, 0x45] ++ zeros 4

/-- The buffer record of a closed block with its copies (R66, R80). -/
def Buffer.closedWith (x : Buffer) (copies : Pair (Option CopyState)) : Buffer :=
  { x with fold := x.closedFold, check := x.closedFold.value, state := .inFlight, copies := copies }

/-- The writes of a closing block: fill, header, trailer (R80). -/
def Part.writeClosing (s : Part) (x : Buffer) (b base : Nat) : Part :=
  ((s.writeBlock x b base (32 + x.used) x.fill).writeBlock x b base 0 x.closedHeader).writeBlock x b base 32752 x.closedTrailer

/-- The assembly state without an open block (R80). -/
def Assembly.blockClosed (a : Assembly) : Assembly := { a with openBlock := none, timer := none }

/-- The lane with block `b` at the tail of its send queue (R80). -/
def Lane.queued (l : Lane) (b : Nat) : Lane := { l with queue := l.queue ++ [⟨b, none, 0, false⟩] }

/-! ## Block close -/

theorem headerBytes_closed (x : Buffer) : headerBytes 2 0 0 x.segments (zeros 8) 0 0 0 x.used 0 = x.closedHeader := rfl

theorem trailerBytes_closed (check : Nat) :
    trailerBytes check 0 = leBytes 4 check ++ zeros 4 ++ [0x4B, 0x44, 0x53, 0x45] ++ zeros 4 := rfl

theorem pushWrites_setBuffer (s : Part) (b : Nat) (x : Buffer) (kind : Bool → OwnKind) (addr : Nat) (bs : List Byte) :
    (s.setBuffer b x).pushWrites kind addr bs = (s.pushWrites kind addr bs).setBuffer b x := rfl

theorem owed_setBuffer (s : Part) (b : Nat) (x : Buffer) (k : LaneId) : (s.setBuffer b x).owed k = s.owed k := rfl

theorem owed_pushWrites (s : Part) (kind : Bool → OwnKind) (addr : Nat) (bs : List Byte) (k : LaneId) :
    (s.pushWrites kind addr bs).owed k = s.owed k := rfl

/-- An open block closes: its writes, its buffer record, the lanes it is owed to, the assembly state (R80). -/
theorem closeBlock_eq {s : Part} {k : LaneId} {b : Nat} (opened : (s.asm k).openBlock = some b) :
    s.closeBlock k = ((s.owed k).foldl (Part.handBlock b) ((s.writeClosing (s.buffer b) b (s.bufferBase b)).setBuffer b
      ((s.buffer b).closedWith (s.buffer b).copies))).modAsm k Assembly.blockClosed := by
  simp only [Part.closeBlock, opened]
  generalize s.buffer b = x
  generalize s.bufferBase b = base
  simp only [Part.writeClosing, Part.writeBlock, pushWrites_setBuffer, owed_setBuffer, owed_pushWrites, Nat.add_assoc,
    Nat.add_zero, headerBytes_closed, trailerBytes_closed, Buffer.closedWith, Buffer.closedTrailer, Buffer.closedFold,
    Buffer.fill, Config.payloadBytes]
  rfl

theorem handBlock_setBuffer (s : Part) (k : LaneId) (b : Nat) (x : Buffer) (h : b < s.pool.buffers.length) :
    Part.handBlock b (s.setBuffer b x) k
      = (s.setLane k ((s.lane k).queued b)).setBuffer b { x with copies := x.copies.set k (some .queued) } := by
  simp only [Part.handBlock, buffer_setBuffer_same s b x h, setBuffer_setBuffer]
  rfl

/-- The part whose lane `k` has no open block any more, its block `b` being closed with these copies (R66, R80). -/
def Part.blockClosed (s : Part) (k : LaneId) (b : Nat) (copies : Pair (Option CopyState)) : Part :=
  (s.setBuffer b ((s.buffer b).closedWith copies)).setAsm k (s.asm k).blockClosed

/-- A block of one lane closes: it joins that lane's send queue (R80). -/
theorem closeBlock_single {s : Part} {k : LaneId} {b : Nat} (opened : (s.asm k).openBlock = some b)
    (h : b < s.pool.buffers.length) (single : s.owed k = [k]) :
    s.closeBlock k = ((s.blockClosed k b ((s.buffer b).copies.set k (some .queued))).setLane k
      ((s.lane k).queued b)).writeClosing (s.buffer b) b (s.bufferBase b) := by
  rw [closeBlock_eq opened, single, Part.blockClosed]
  generalize s.buffer b = x
  generalize s.bufferBase b = base
  rw [List.foldl_cons, List.foldl_nil, handBlock_setBuffer (s.writeClosing x b base) k b _ h]
  rfl

theorem copies_both (c : Pair (Option CopyState)) (k : LaneId) :
    (c.set k (some .queued)).set k.other (some .queued) = ⟨some .queued, some .queued⟩ := by
  cases k <;> rfl

/-- A block of the primary lane of a twin run closes: it joins both lanes' send queues (R80, R84). -/
theorem closeBlock_both {s : Part} {k : LaneId} {b : Nat} (opened : (s.asm k).openBlock = some b)
    (h : b < s.pool.buffers.length) (both : s.owed k = [k, k.other]) :
    s.closeBlock k = (((s.blockClosed k b ⟨some .queued, some .queued⟩).setLane k ((s.lane k).queued b)).setLane k.other
      ((s.lane k.other).queued b)).writeClosing (s.buffer b) b (s.bufferBase b) := by
  rw [closeBlock_eq opened, both, Part.blockClosed]
  generalize s.buffer b = x
  generalize s.bufferBase b = base
  rw [List.foldl_cons, List.foldl_cons, List.foldl_nil, handBlock_setBuffer (s.writeClosing x b base) k b _ h,
    handBlock_setBuffer ((s.writeClosing x b base).setLane k _) k.other b _ h, lane_setLane_other]
  simp only [Buffer.closedWith, copies_both]
  rfl

theorem owed_single {s : Part} {k : LaneId}
    (h : ¬ (s.twin.on = true ∧ k = s.twin.primary ∧ (s.lane k.other).run.isOpen = true)) : s.owed k = [k] :=
  if_neg fun ⟨on, primary, opened⟩ => h ⟨on, primary.symm, opened⟩

theorem owed_both {s : Part} {k : LaneId} (on : s.twin.on = true) (primary : k = s.twin.primary)
    (opened : (s.lane k.other).run.isOpen = true) : s.owed k = [k, k.other] :=
  if_pos ⟨on, primary.symm, opened⟩

/-! ## Idle timers -/

theorem ranOut_due {s : Part} {o : Option Timer} {tm : Timer} (runs : o = some tm) (due : tm.start + tm.period ≤ s.now) :
    s.ranOut o = true := by
  rw [runs]
  exact decide_eq_true due

/-- Settles O16: `closeOpenSegment_filling` and `closeBlock_single` or `closeBlock_both`. -/
theorem idleTimersClose : Obligations.IdleTimersClose := by
  refine ⟨fun s i k g tm high runs due filling bound => ?_, fun s k b tm high runs due opened inPool => ?_⟩
  · have effect : s.idleTimer i = _ :=
      (if_pos (ranOut_due runs due)).trans (closeOpenSegment_filling s.toPart i g k filling bound)
    obtain ⟨u, next, pending, blocks, -, issued, latched⟩ := event_blocks s (fun p => p.idleTimer i) high
    rw [effect] at blocks issued latched
    exact ⟨u, next, pending, blocks, latched, issued⟩
  · have leaves : Leaves (.blockIdleTimer k) s (s.blockIdleTimer k) :=
      laneEvent_leaves _ s (fun p => p.blockIdleTimer k) rfl high
    rw [Part.blockIdleTimer, if_pos (ranOut_due runs due)] at leaves
    refine ⟨fun single => ?_, fun ⟨on, primary, twin⟩ => ?_⟩
    · rw [closeBlock_single opened inPool (owed_single single)] at leaves
      exact leaves
    · rw [closeBlock_both opened inPool (owed_both on primary twin)] at leaves
      exact leaves

end Sys2Proof.Machine
end

section
/-! SUPPORT. Entries of the offer queue appended whole, to the open block or to a new buffer, or split at a token boundary
(R53, R64, R71 to R74, R76, R83). Settles O17. -/

namespace Sys2Proof.Machine

/-! ## The bytes of an entry (R76) -/

theorem segmentBytes_length (i r : Nat) (g : Segment) : (segmentBytes i r g).length = g.payloadSize := by
  have header : (segmentHeader i r g).length = 20 := by simp [segmentHeader]
  have check : (if g.last then leBytes 4 g.check else []).length = if g.last then 4 else 0 := by split <;> simp
  rw [segmentBytes, List.length_append, List.length_append, header, packedBytes_length, check, Segment.payloadSize]

theorem payloadSize_le (g : Segment) (small : packedLength g.tokens ≤ 4096) : g.payloadSize ≤ 4120 := by
  rw [Segment.payloadSize]
  split <;> omega

/-! ## The head entry of a lane -/

/-- In `p`, stream `i`'s entry still stands at the head of lane `k`'s offers with `rest` behind it, and what an append of it reads
beside the block is as in `s`: the stream, without waiting items or flush request, the pool's place and the times. No entry holds
the flush mark. -/
structure Part.Carries (p s : Part) (k : LaneId) (i : Fin 8) (rest : List (Fin 8)) : Prop where
  stream : p.stream i = s.stream i
  geometry : p.pool.geometry = s.pool.geometry
  now : p.now = s.now
  force : p.force = s.force
  offers : (p.asm k).offers = i :: rest
  mark : (p.asm k).mark = none
  waits : (s.stream i).waiting = []
  flush : (s.stream i).flush = false

/-- The lane takes entries, and the head of its offers is segment `g` of stream `i`, not yet split (R70, R71). -/
structure Part.HasEntry (s : Part) (k : LaneId) (i : Fin 8) (g : Segment) (rest : List (Fin 8)) : Prop where
  isOpen : (s.lane k).run.isOpen = true
  goesOn : (s.lane k).run.stopAfter = false
  working : (s.lane k).state ≠ .fault
  pool : s.pool.geometry ≠ none
  closed : (s.stream i).seg = .closed g
  remainder : (s.asm k).remainder = none
  carries : s.Carries s k i rest

/-! ## Pieces appended (R73) -/

/-- The buffer record with a piece of stream `i` in record `r` behind its payload (R73, R83). -/
def Buffer.appended (x : Buffer) (i : Fin 8) (r : Nat) (g : Segment) : Buffer :=
  { x with
    used := x.used + (segmentBytes i.val r g).length
    segments := x.segments + 1
    fold := x.fold.addAll (segmentBytes i.val r g)
    summary := addSummary i ⟨r, g.index, g.first⟩ ⟨r, g.index, g.last⟩ x.summary }

/-- `p` with a piece of stream `i` appended to block `b`; the stream, the pool's place and the times are those of `s` (R73). -/
def Part.appended (s p : Part) (k : LaneId) (b : Nat) (i : Fin 8) (g : Segment) : Part :=
  let r := (s.stream i).current.getD 0
  ((p.writeBlock (p.buffer b) b (s.bufferBase b) (32 + (p.buffer b).used) (segmentBytes i.val r g)).setBuffer b
    ((p.buffer b).appended i r g)).setAsm k { p.asm k with timer := some ⟨s.now, 100000 * s.force.idleTime⟩ }

section Appended
variable {s p : Part} {k : LaneId} {i : Fin 8} {rest : List (Fin 8)}

theorem appendPiece_eq (h : p.Carries s k i rest) (b : Nat) (g : Segment) : p.appendPiece k b i g = s.appended p k b i g := by
  have base : s.bufferBase b = p.bufferBase b := by rw [Part.bufferBase, Part.bufferBase, h.geometry]
  rw [Part.appended, ← h.stream, base, ← h.now, ← h.force, Part.writeBlock, ← Nat.add_assoc]
  rfl

theorem appended_asm (s p : Part) (k : LaneId) (b : Nat) (i : Fin 8) (g : Segment) :
    (s.appended p k b i g).asm k = { p.asm k with timer := some ⟨s.now, 100000 * s.force.idleTime⟩ } :=
  asm_setAsm_same _ _ _

theorem appended_buffer (s p : Part) (k : LaneId) (b : Nat) (i : Fin 8) (g : Segment) (h : b < p.pool.buffers.length) :
    (s.appended p k b i g).buffer b = (p.buffer b).appended i ((s.stream i).current.getD 0) g :=
  buffer_setBuffer_same (p.writeBlock _ b _ _ _) b _ h

theorem appended_buffers (s p : Part) (k : LaneId) (b : Nat) (i : Fin 8) (g : Segment) :
    (s.appended p k b i g).pool.buffers.length = p.pool.buffers.length :=
  List.length_set ..

theorem appended_free (s p : Part) (k : LaneId) (b : Nat) (i : Fin 8) (g : Segment) :
    (s.appended p k b i g).pool.free = p.pool.free := rfl

theorem appended_carries (h : p.Carries s k i rest) (b : Nat) (g : Segment) : (s.appended p k b i g).Carries s k i rest :=
  { h with
    offers := (congrArg Assembly.offers (appended_asm s p k b i g)).trans h.offers
    mark := (congrArg Assembly.mark (appended_asm s p k b i g)).trans h.mark }

end Appended

/-! ## Entries done (R53) -/

/-- The stream that hears that its entry ended with piece `g` (R53). -/
def Stream.hears (x : Stream) (g : Segment) : Stream :=
  { x with
    seg := .empty
    nextIndex := .num (g.index + 1)
    state := if g.last then .idle else x.state
    current := if g.last then none else x.current }

/-- A stream without waiting items or flush request hears of its entry (R53). -/
theorem reportAppended_eq {p : Part} {i : Fin 8} (waits : (p.stream i).waiting = []) (flush : (p.stream i).flush = false)
    (g : Segment) (index : g.index ≠ 2 ^ 32 - 1) : p.reportAppended i g.index g.last = p.setStream i ((p.stream i).hears g) := by
  simp only [Part.reportAppended, waits, if_neg index, Part.placeItems, Part.modStream, stream_setStream_same,
    setStream_setStream, Stream.hears]
  rw [flush]

/-- `p` with the head entry of lane `k` done and nothing left of it; its stream `i` hears of it and else is as in `s` (R53, R73). -/
def Part.entryDone (s p : Part) (k : LaneId) (i : Fin 8) (rest : List (Fin 8)) (g : Segment) : Part :=
  (p.setAsm k { p.asm k with offers := rest, remainder := none }).setStream i ((s.stream i).hears g)

/-- Where no rest of a split entry is kept, none has to be cleared. -/
theorem entryDone_eq {p : Part} {k : LaneId} (whole : (p.asm k).remainder = none) (s : Part) (i : Fin 8) (rest : List (Fin 8))
    (g : Segment) : s.entryDone p k i rest g = (p.setAsm k { p.asm k with offers := rest }).setStream i ((s.stream i).hears g) := by
  rw [Part.entryDone, ← whole]

theorem setAsm_buffer (p : Part) (k : LaneId) (a : Assembly) (b : Nat) : (p.setAsm k a).buffer b = p.buffer b := rfl

/-- The last piece of an entry is appended to a block that it does not fill, and the entry is done (R73, R77). -/
theorem appendFinal_eq {s p : Part} {k : LaneId} {i : Fin 8} {rest : List (Fin 8)} (h : p.Carries s k i rest) {b : Nat}
    {g : Segment} (index : g.index ≠ 2 ^ 32 - 1) (inPool : b < p.pool.buffers.length)
    (room : (p.buffer b).used + g.payloadSize + 32 ≤ 32720) (few : (p.buffer b).segments < 254) :
    p.appendFinal k b i g = s.entryDone (s.appended p k b i g) k i rest g := by
  have carries := appended_carries h b g
  have offers : ((s.appended p k b i g).asm k).offers.drop 1 = rest := by rw [carries.offers]; rfl
  have unmarked : ¬ ((s.appended p k b i g).asm k).mark = some i := by simp [carries.mark]
  have notFull : ((s.appended p k b i g).buffer b).full = false := by
    rw [appended_buffer s p k b i g inPool]
    simp only [Buffer.full, Buffer.appended, segmentBytes_length, Config.payloadBytes, Bool.or_eq_false_iff,
      decide_eq_false_iff_not, beq_eq_false_iff_ne]
    omega
  have waits : ((s.appended p k b i g).stream i).waiting = [] := carries.stream ▸ h.waits
  have flush : ((s.appended p k b i g).stream i).flush = false := carries.stream ▸ h.flush
  rw [Part.appendFinal, appendPiece_eq h, h.stream, h.flush, Part.entryDone, ← carries.stream]
  generalize s.appended p k b i g = q at offers unmarked notFull waits flush ⊢
  simp only [Part.modAsm, setAsm_buffer, notFull, asm_setAsm_same, if_neg unmarked, offers, Bool.false_eq_true, if_false]
  exact reportAppended_eq (p := q.setAsm k _) waits flush g index

/-! ## New buffers (R64, R72) -/

/-- `p` with buffer `b` as lane `k`'s open block, `free` being left (R64, R72). -/
def Part.withBuffer (p : Part) (k : LaneId) (b : Nat) (free : List Nat) : Part :=
  (({ p with pool := { p.pool with
      free := free, waiters := p.pool.waiters.filter (fun j => j ≠ k), nextBlk := p.pool.nextBlk + 1 } } : Part).setBuffer b
    { Buffer.blank with state := .filling, origin := k, blk := p.pool.nextBlk }).setAsm k { p.asm k with openBlock := some b }

/-- The same with POOL LOW latched where fewer than 4 buffers are left (R64). -/
def Part.taken (p : Part) (k : LaneId) (b : Nat) (free : List Nat) : Part :=
  if free.length < 4 then (p.withBuffer k b free).latch .poolLow else p.withBuffer k b free

theorem takeBuffer_free {p : Part} {b : Nat} {free : List Nat} (k : LaneId) (h : p.pool.free = b :: free) :
    p.takeBuffer k = (p.taken k b free).touch .pool := by
  have waiters : p.pool.waiters.filter (fun j => j ≠ k) = p.pool.waiters.filter (· != k) :=
    List.filter_congr fun j _ => by cases j <;> cases k <;> rfl
  simp only [Part.takeBuffer, h, Part.taken, Part.withBuffer, waiters]
  split <;> rfl

theorem takeBuffer_none {p : Part} (k : LaneId) (h : p.pool.free = []) :
    p.takeBuffer k = { p with pool := { p.pool with
      waiters := if k ∈ p.pool.waiters then p.pool.waiters else p.pool.waiters ++ [k] } } := by
  simp only [Part.takeBuffer, h, List.contains_iff_mem]
  split
  · rw [← h]
  · rfl

section Taken
variable (p : Part) (k : LaneId) (b : Nat) (free : List Nat)

/-- A view that does not show the latched bits shows the buffer taken and nothing of POOL LOW. -/
theorem taken_view {α : Type} (v : Part → α) (hv : ∀ q : Part, v (q.latch .poolLow) = v q) :
    v (p.taken k b free) = v (p.withBuffer k b free) := by
  unfold Part.taken
  split
  · exact hv _
  · rfl

theorem taken_asm : (p.taken k b free).asm k = { p.asm k with openBlock := some b } :=
  (taken_view p k b free (·.asm k) (fun _ => rfl)).trans (asm_setAsm_same _ _ _)

theorem taken_buffer (h : b < p.pool.buffers.length) :
    (p.taken k b free).buffer b = { Buffer.blank with state := .filling, origin := k, blk := p.pool.nextBlk } :=
  (taken_view p k b free (·.buffer b) (fun _ => rfl)).trans (buffer_setBuffer_same { p with pool := _ } b _ h)

theorem taken_buffers : (p.taken k b free).pool.buffers.length = p.pool.buffers.length :=
  (taken_view p k b free (fun q => q.pool.buffers.length) (fun _ => rfl)).trans (List.length_set ..)

theorem taken_carries {s : Part} {i : Fin 8} {rest : List (Fin 8)} (h : p.Carries s k i rest) :
    (p.taken k b free).Carries s k i rest where
  stream := (taken_view p k b free (·.stream i) (fun _ => rfl)).trans h.stream
  geometry := (taken_view p k b free (·.pool.geometry) (fun _ => rfl)).trans h.geometry
  now := (taken_view p k b free (·.now) (fun _ => rfl)).trans h.now
  force := (taken_view p k b free (·.force) (fun _ => rfl)).trans h.force
  offers := (congrArg Assembly.offers (taken_asm p k b free)).trans h.offers
  mark := (congrArg Assembly.mark (taken_asm p k b free)).trans h.mark
  waits := h.waits
  flush := h.flush

end Taken

/-- An entry's last piece goes to the buffer at the head of the free list (R64, R72, R73). -/
theorem appendFinal_taken {s p : Part} {k : LaneId} {i : Fin 8} {rest : List (Fin 8)} (h : p.Carries s k i rest) {b : Nat}
    {free : List Nat} (hfree : p.pool.free = b :: free) (inPool : b < p.pool.buffers.length) {g : Segment}
    (index : g.index ≠ 2 ^ 32 - 1) (small : packedLength g.tokens ≤ 4096) :
    (p.takeBuffer k).appendFinal k b i g = (s.entryDone (s.appended (p.taken k b free) k b i g) k i rest g).touch .pool := by
  have size := payloadSize_le g small
  have blank := taken_buffer p k b free inPool
  have length := taken_buffers p k b free
  have carries := taken_carries p k b free h
  rw [takeBuffer_free k hfree]
  generalize p.taken k b free = q at *
  have used : ((q.touch .pool).buffer b).used = 0 := congrArg Buffer.used blank
  have segments : ((q.touch .pool).buffer b).segments = 0 := congrArg Buffer.segments blank
  rw [appendFinal_eq (p := q.touch .pool) { carries with } index (length.symm ▸ inPool) (by omega) (by omega)]
  rfl

/-! ## The rest of a split entry (R74) -/

/-- `p` with what is left of the head entry of lane `k` (R74). -/
def Part.withRemainder (p : Part) (k : LaneId) (g : Segment) : Part := p.setAsm k { p.asm k with remainder := some g }

theorem withRemainder_asm (p : Part) (k : LaneId) (g : Segment) :
    (p.withRemainder k g).asm k = { p.asm k with remainder := some g } :=
  asm_setAsm_same p k _

theorem withRemainder_carries {s p : Part} {k : LaneId} {i : Fin 8} {rest : List (Fin 8)} (h : p.Carries s k i rest)
    (g : Segment) : (p.withRemainder k g).Carries s k i rest :=
  { h with
    offers := (congrArg Assembly.offers (withRemainder_asm p k g)).trans h.offers
    mark := (congrArg Assembly.mark (withRemainder_asm p k g)).trans h.mark }

theorem taken_withRemainder (p : Part) (k : LaneId) (g : Segment) (b : Nat) (free : List Nat) :
    (p.withRemainder k g).taken k b free = (p.taken k b free).withRemainder k g := by
  have base : (p.withRemainder k g).withBuffer k b free = (p.withBuffer k b free).withRemainder k g := by
    cases k <;> rfl
  rw [Part.taken, Part.taken, base]
  split <;> rfl

theorem appended_withRemainder (s p : Part) (k : LaneId) (r : Segment) (b : Nat) (i : Fin 8) (g : Segment) :
    s.appended (p.withRemainder k r) k b i g = (s.appended p k b i g).withRemainder k r := by
  simp only [Part.appended, Part.withRemainder, asm_setAsm_same, setAsm_setAsm]
  cases k <;> rfl

theorem entryDone_withRemainder (s p : Part) (k : LaneId) (r : Segment) (i : Fin 8) (rest : List (Fin 8)) (g : Segment) :
    s.entryDone (p.withRemainder k r) k i rest g = s.entryDone p k i rest g := by
  cases k <;> rfl

/-- The rest of a split entry goes to the buffer at the head of the free list (R74). -/
theorem appendToNew_eq {s p : Part} {k : LaneId} {i : Fin 8} {rest : List (Fin 8)} (h : p.Carries s k i rest)
    (none : (p.asm k).openBlock = none) {b : Nat} {free : List Nat} (hfree : p.pool.free = b :: free)
    (inPool : b < p.pool.buffers.length) {g : Segment} (index : g.index ≠ 2 ^ 32 - 1) (small : packedLength g.tokens ≤ 4096) :
    (p.withRemainder k g).appendToNew k i g
      = (s.entryDone (s.appended (p.taken k b free) k b i g) k i rest g).touch .pool := by
  have takes : (p.withRemainder k g).withBlock k = (p.withRemainder k g).takeBuffer k := by
    rw [Part.withBlock, withRemainder_asm, none]
  have opened : (((p.withRemainder k g).takeBuffer k).asm k).openBlock = some b := by
    rw [takeBuffer_free (p := p.withRemainder k g) k hfree]
    exact congrArg Assembly.openBlock (taken_asm _ k b free)
  simp only [Part.appendToNew, takes, opened]
  rw [appendFinal_taken (withRemainder_carries h g) hfree inPool index small, taken_withRemainder, appended_withRemainder,
    entryDone_withRemainder]

/-! ## Splits (R74) -/

/-- The tokens of `g` are cut behind `front`, the longest run of them that fits in `space` bytes with a segment header; all of `g`
does not fit (R74). -/
structure Segment.SplitsAt (g : Segment) (space : Nat) (front back : List Token) : Prop where
  tokens : g.tokens = front ++ back
  nonempty : front ≠ []
  fits : 20 + packedLength front ≤ space
  longest : ∀ t ∈ back.head?, space < 20 + packedLength (front ++ [t])
  long : space < g.payloadSize

/-- The leading tokens that fit, cut where the next one does not (R74). -/
theorem splitTokens_append (front back : List Token) (space : Nat) (fits : packedLength front ≤ space)
    (longest : ∀ t ∈ back.head?, space < packedLength front + t.size) : splitTokens space (front ++ back) = (front, back) := by
  induction front generalizing space with
  | nil =>
    cases back with
    | nil => rfl
    | cons t ts =>
      have long : space < t.size := by simpa using longest t rfl
      exact if_neg (Nat.not_le.mpr long)
  | cons f fs ih =>
    rw [packedLength_cons] at fits
    have rest := ih (space - f.size) (by omega) fun t ht => by
      have next := longest t ht
      rw [packedLength_cons] at next
      omega
    rw [List.cons_append, splitTokens, if_pos (by omega : f.size ≤ space), rest]

theorem splitTokens_eq {g : Segment} {space : Nat} {front back : List Token} (h : g.SplitsAt space front back) :
    splitTokens (space - 20) g.tokens = (front, back) := by
  obtain ⟨tokens, -, fits, longest, -⟩ := h
  rw [tokens]
  refine splitTokens_append front back _ (by omega) fun t ht => ?_
  have next := longest t ht
  rw [packedLength_append, packedLength_cons, packedLength_nil] at next
  omega

/-- The part of `g` in front of a split (R74). -/
def Segment.inFront (g : Segment) (front : List Token) : Segment := { g with tokens := front, last := false }

/-- What is left of `g` behind a split (R74). -/
def Segment.behind (g : Segment) (front back : List Token) : Segment :=
  { g with index := g.index + 1, rawOffset := g.rawOffset + rawLength front, first := false, tokens := back }

/-! ## The head entry worked on (R71 to R75) -/

section Entry
variable {s : Part} {k : LaneId} {i : Fin 8} {g : Segment} {rest : List (Fin 8)}

theorem headPiece_of_entry (h : s.HasEntry k i g rest) : s.headPiece k = some (i, g) := by
  simp only [Part.headPiece, h.carries.offers, h.remainder, h.closed]

theorem taking_of_entry (h : s.HasEntry k i g rest) : s.taking k = true := by
  simp [Part.taking, h.isOpen, h.goesOn, h.working, Option.isSome_iff_ne_none, h.pool]

/-- An entry that fits the lane's block, be it a new one, is appended whole (R73). -/
theorem workHead_fits {b : Nat} (h : s.HasEntry k i g rest) (block : ((s.withBlock k).asm k).openBlock = some b)
    (fits : g.payloadSize ≤ 32720 - ((s.withBlock k).buffer b).used) :
    s.workHead k = (s.withBlock k).appendFinal k b i g := by
  simp only [Part.workHead, taking_of_entry h, headPiece_of_entry h, block]
  exact if_pos fits

/-- An entry that fits the open block with room to spare is appended to it (R73). -/
theorem workHead_whole {b : Nat} (h : s.HasEntry k i g rest) (opened : (s.asm k).openBlock = some b)
    (inPool : b < s.pool.buffers.length) (index : g.index ≠ 2 ^ 32 - 1)
    (room : (s.buffer b).used + g.payloadSize + 32 ≤ 32720) (few : (s.buffer b).segments < 254) :
    s.workHead k = s.entryDone (s.appended s k b i g) k i rest g := by
  have stands : s.withBlock k = s := by rw [Part.withBlock, opened]
  rw [workHead_fits h (stands.symm ▸ opened) (by rw [stands]; omega), stands, appendFinal_eq h.carries index inPool room few]

/-- Without an open block an entry goes to the buffer at the head of the free list (R64, R72, R73). -/
theorem workHead_new {b : Nat} {free : List Nat} (h : s.HasEntry k i g rest) (none : (s.asm k).openBlock = none)
    (hfree : s.pool.free = b :: free) (inPool : b < s.pool.buffers.length) (index : g.index ≠ 2 ^ 32 - 1)
    (small : packedLength g.tokens ≤ 4096) :
    s.workHead k = (s.entryDone (s.appended (s.taken k b free) k b i g) k i rest g).touch .pool := by
  have takes : s.withBlock k = (s.taken k b free).touch .pool := by rw [Part.withBlock, none, takeBuffer_free k hfree]
  have opened : ((s.withBlock k).asm k).openBlock = some b := by
    rw [takes]
    exact congrArg Assembly.openBlock (taken_asm s k b free)
  have blank : ((s.withBlock k).buffer b).used = 0 := by
    rw [takes]
    exact congrArg Buffer.used (taken_buffer s k b free inPool)
  have size := payloadSize_le g small
  rw [workHead_fits h opened (by omega), takes, ← takeBuffer_free k hfree, appendFinal_taken h.carries hfree inPool index small]

/-- Without an open block and a free buffer the lane waits for one (R64, R72). -/
theorem workHead_waits (h : s.HasEntry k i g rest) (none : (s.asm k).openBlock = none) (hfree : s.pool.free = []) :
    s.workHead k = s.takeBuffer k := by
  have waits : ((s.takeBuffer k).asm k).openBlock = .none := by
    rw [takeBuffer_none k hfree]
    exact none
  simp only [Part.workHead, taking_of_entry h, headPiece_of_entry h, Part.withBlock, none, waits]
  rfl

/-- An entry that does not fit the open block is split: a part in front, the block closed, the rest for a new block (R74). -/
theorem workHead_splits {b : Nat} {front back : List Token} (h : s.HasEntry k i g rest) (opened : (s.asm k).openBlock = some b)
    (cut : g.SplitsAt (32720 - (s.buffer b).used) front back) (index : g.index ≠ 2 ^ 32 - 1) :
    s.workHead k = (((s.appendPiece k b i (g.inFront front)).closeBlock k).withRemainder k (g.behind front back)).appendToNew k i
      (g.behind front back) := by
  have someFits : ¬ (front.isEmpty = true ∨ 32720 - (s.buffer b).used < 20) := by
    rw [List.isEmpty_iff]
    exact not_or.mpr ⟨cut.nonempty, by have := cut.fits; omega⟩
  simp only [Part.workHead, taking_of_entry h, headPiece_of_entry h, Part.withBlock, opened, Config.payloadBytes,
    if_neg (Nat.not_le.mpr cut.long), splitTokens_eq cut, if_neg someFits, if_neg index]
  rfl

end Entry

/-! ## Blocks closed for one lane (R80) -/

/-- `p` with the open block `b` of lane `k` closed for that lane alone (R80). -/
def Part.closedAlone (p : Part) (k : LaneId) (b base : Nat) : Part :=
  ((p.blockClosed k b ((p.buffer b).copies.set k (some .queued))).setLane k
    ((p.lane k).queued b)).writeClosing (p.buffer b) b base

theorem closeBlock_alone {p : Part} {k : LaneId} {b : Nat} (opened : (p.asm k).openBlock = some b)
    (h : b < p.pool.buffers.length) (single : p.twin.on = false) : p.closeBlock k = p.closedAlone k b (p.bufferBase b) :=
  closeBlock_single opened h (owed_single fun ⟨on, _⟩ => Bool.false_ne_true (single.symm.trans on))

theorem blockClosed_asm (p : Part) (k : LaneId) (b : Nat) (copies : Pair (Option CopyState)) :
    (p.blockClosed k b copies).asm k = (p.asm k).blockClosed :=
  asm_setAsm_same _ k _

theorem writeClosing_asm (p : Part) (x : Buffer) (b base : Nat) (k : LaneId) : (p.writeClosing x b base).asm k = p.asm k := rfl

theorem closedAlone_asm (p : Part) (k : LaneId) (b base : Nat) : (p.closedAlone k b base).asm k = (p.asm k).blockClosed := by
  rw [Part.closedAlone, writeClosing_asm, setLane_asm, blockClosed_asm]

theorem closedAlone_buffers (p : Part) (k : LaneId) (b base : Nat) :
    (p.closedAlone k b base).pool.buffers.length = p.pool.buffers.length :=
  List.length_set ..

theorem closedAlone_free (p : Part) (k : LaneId) (b base : Nat) : (p.closedAlone k b base).pool.free = p.pool.free := rfl

section Closed
variable {s p : Part} {k : LaneId} {i : Fin 8} {rest : List (Fin 8)}

theorem blockClosed_carries (h : p.Carries s k i rest) (b : Nat) (copies : Pair (Option CopyState)) :
    (p.blockClosed k b copies).Carries s k i rest :=
  { h with
    offers := (congrArg Assembly.offers (blockClosed_asm p k b copies)).trans h.offers
    mark := (congrArg Assembly.mark (blockClosed_asm p k b copies)).trans h.mark }

theorem setLane_carries (h : p.Carries s k i rest) (l : Lane) : (p.setLane k l).Carries s k i rest := { h with }

theorem writeClosing_carries (h : p.Carries s k i rest) (x : Buffer) (b base : Nat) :
    (p.writeClosing x b base).Carries s k i rest := { h with }

theorem closedAlone_carries (h : p.Carries s k i rest) (b base : Nat) : (p.closedAlone k b base).Carries s k i rest :=
  writeClosing_carries (setLane_carries (blockClosed_carries h b _) _) _ b base

end Closed

/-- `s` with the front of a split entry appended to the open block and that block closed (R74, R80). -/
def Part.cutAt (s : Part) (k : LaneId) (b : Nat) (i : Fin 8) (g : Segment) (front : List Token) : Part :=
  (s.appended s k b i (g.inFront front)).closedAlone k b (s.bufferBase b)

theorem cutAt_asm (s : Part) (k : LaneId) (b : Nat) (i : Fin 8) (g : Segment) (front : List Token) :
    (s.cutAt k b i g front).asm k = (s.asm k).blockClosed := by
  rw [Part.cutAt, closedAlone_asm, appended_asm]
  rfl

/-- Outside twin mode an entry that does not fit the open block is split, and its rest goes to a new buffer (R72, R74, R80). -/
theorem workHead_split {s : Part} {k : LaneId} {i : Fin 8} {g : Segment} {rest : List (Fin 8)} {b n : Nat} {free : List Nat}
    {front back : List Token} (h : s.HasEntry k i g rest) (single : s.twin.on = false) (opened : (s.asm k).openBlock = some b)
    (inPool : b < s.pool.buffers.length) (cut : g.SplitsAt (32720 - (s.buffer b).used) front back) (index : g.index < 2 ^ 32 - 2)
    (small : packedLength g.tokens ≤ 4096) (hfree : s.pool.free = n :: free) (inPool' : n < s.pool.buffers.length) :
    s.workHead k = (s.entryDone (s.appended ((s.cutAt k b i g front).taken k n free) k n i (g.behind front back)) k i rest
      (g.behind front back)).touch .pool := by
  have carries : (s.cutAt k b i g front).Carries s k i rest := closedAlone_carries (appended_carries h.carries b _) b _
  have none : ((s.cutAt k b i g front).asm k).openBlock = none := congrArg Assembly.openBlock (cutAt_asm s k b i g front)
  have hfree' : (s.cutAt k b i g front).pool.free = n :: free := by rw [Part.cutAt, closedAlone_free, appended_free, hfree]
  have length : (s.cutAt k b i g front).pool.buffers.length = s.pool.buffers.length := by
    rw [Part.cutAt, closedAlone_buffers, appended_buffers]
  have index' : (g.behind front back).index ≠ 2 ^ 32 - 1 := by
    change g.index + 1 ≠ _
    omega
  have small' : packedLength (g.behind front back).tokens ≤ 4096 := by
    rw [cut.tokens, packedLength_append] at small
    exact (Nat.le_add_left ..).trans small
  have closes : (s.appended s k b i (g.inFront front)).closeBlock k = s.cutAt k b i g front :=
    closeBlock_alone ((congrArg Assembly.openBlock (appended_asm ..)).trans opened) (by rwa [appended_buffers]) single
  rw [workHead_splits h opened cut (by omega), appendPiece_eq h.carries, closes]
  exact appendToNew_eq carries none hfree' (length.symm ▸ inPool') index' small'

/-- A section marked at the event shows in nothing that a statement speaks of. -/
theorem leaves_of_touched {c : Instr} {s : State} {x : Part} (y : Section) (h : Leaves c s (x.touch y)) : Leaves c s x := h

/-- Settles O17: `workHead_whole`, `workHead_new`, `workHead_waits` and `workHead_split`. -/
theorem segmentAppendedWhole : Obligations.SegmentAppendedWhole := by
  intro s k i g rest high isOpen goesOn working pool offers remainder mark closed waits flush small
  have h : s.HasEntry k i g rest :=
    ⟨isOpen, goesOn, working, pool, closed, remainder, ⟨rfl, rfl, rfl, rfl, offers, mark, waits, flush⟩⟩
  have leaves : Leaves (.segmentAppend k) s (s.workHead k) := laneEvent_leaves _ s (fun p => p.workHead k) rfl high
  refine ⟨rfl, segmentBytes_length _ _ g, fun b opened inPool index room few => ?_, fun b free none hfree inPool index => ?_,
    fun none hfree => ?_,
    fun b n free front back opened hfree inPool inPool' index single used long tokens nonempty fits longest => ?_⟩
  · rw [workHead_whole h opened inPool (by omega) room few, entryDone_eq (by rw [appended_asm, remainder])] at leaves
    exact leaves
  · rw [workHead_new h none hfree inPool (by omega) small, entryDone_eq (by rw [appended_asm, taken_asm, remainder])] at leaves
    exact leaves_of_touched _ leaves
  · rw [workHead_waits h none hfree, takeBuffer_none k hfree] at leaves
    exact leaves
  · have long' : 32720 < (s.buffer b).used + g.payloadSize := long
    have cut : g.SplitsAt (32720 - (s.buffer b).used) front back :=
      ⟨tokens, nonempty, by omega, fun t ht => by have := longest t ht; omega, by omega⟩
    rw [workHead_split h single opened inPool cut index small hfree inPool',
      entryDone_eq (by rw [appended_asm, taken_asm, cutAt_asm]; exact remainder)] at leaves
    exact leaves_of_touched _ leaves

end Sys2Proof.Machine
end

section
/-! SUPPORT. What the lanes settle where both are calm or an EOV is due; CLOSE VOLUME and END RUN (R84, R117 to R120, R124).
Settles O38. -/

namespace Sys2Proof.Machine

/-! ## Lanes that settle -/

theorem verifyStep_of_none {s : Part} {k : LaneId} (none : (s.lane k).verify = none) : s.verifyStep k = s := by
  simp [Part.verifyStep, Part.verifying, none]

theorem restoreStep_of_none {s : Part} {k : LaneId} (none : (s.lane k).restore = none) : s.restoreStep k = s := by
  simp [Part.restoreStep, Part.restoring, none]

/-- With both lanes calm, all that is left to the end of an event is that resting lanes follow their bays (R86). -/
theorem settle_calm (old : Part) {s : Part} (again : Bool) (calm : ∀ k, (s.lane k).calm = true) :
    settle old s again = (s.follow .l0).follow .l1 := by
  simp only [settle]
  rw [verifyStep_calm s _ (calm _), restoreStep_calm s _ (calm _), verifyStep_calm s _ (calm _), restoreStep_calm s _ (calm _),
    volumeLogic_calm old s again (calm _) (calm _), loanStep_calm s _ (calm _), loanStep_calm s _ (calm _)]

/-- A lane at work does not follow its bay (R86). -/
theorem follow_working {s : Part} {k : LaneId} (working : (s.lane k).resting = false) (j : LaneId) :
    (s.follow j).lane k = s.lane k := by
  simp only [Lane.resting, Bool.or_eq_false_iff, beq_eq_false_iff_ne] at working
  unfold Part.follow
  dsimp only
  split
  · next follows =>
    cases j <;> cases k
    case l0.l0 | l1.l1 => exact absurd follows.2 (not_or.mpr working)
    all_goals rfl
  · rfl

/-! ## The EOV due (R118) -/

/-- The lane with its EOV pending at the volume's next sequence, its list taken now (R118). -/
def Lane.withEov (l : Lane) (v : Volume) (list : List (Fin 8 × Nat × Nat)) : Lane :=
  { l with pending := some (.eov v.nextSeq 0), owedEov := none, volume := some { v with nextSeq := v.nextSeq + 1 }
           run := { l.run with eovList := list, absentFrom := l.lowestGiven } }

/-- The lane is in CLOSING with a volume that has room for its EOV, nothing of which is under way, and nothing due (R118). -/
structure Lane.EovDue (l : Lane) (v : Volume) : Prop where
  state : l.state = .closing
  volume : l.volume = some v
  owed : l.owedEov = none
  due : l.headDue = false
  underWay : l.eovUnderWay = false
  room : v.positions < l.run.ownCapacity

theorem closeOpenSegment_of_not_filling {s : Part} {i : Fin 8} (h : ∀ g, (s.stream i).seg ≠ .filling g) :
    s.closeOpenSegment i = s := by
  unfold Part.closeOpenSegment
  split
  · next g filling => exact absurd filling (h g)
  · rfl

theorem eovStep_due {s : Part} {k : LaneId} {v : Volume} (h : (s.lane k).EovDue v) (single : s.twin.on = false)
    (closed : ∀ i g, (s.stream i).lane = some k → (s.stream i).seg ≠ .filling g) :
    s.eovStep k = s.setLane k ((s.lane k).withEov v (s.eovEntries k)) := by
  have none_open : (s.boundStreams k).foldl Part.closeOpenSegment s = s := by
    refine List.foldlRecOn (motive := (· = s)) _ _ rfl fun t same i bound => ?_
    simp only [Part.boundStreams, List.mem_filter, beq_iff_eq] at bound
    rw [same, closeOpenSegment_of_not_filling fun g => closed i g bound.2]
  have room : ¬ (s.lane k).run.ownCapacity ≤ v.positions := Nat.not_le.mpr h.room
  simp only [Part.eovStep, h.state, h.volume, h.owed, h.due, h.underWay, single, room, none_open, Part.makeEov, Part.modLane,
    Bool.false_or, decide_false, Bool.false_eq_true, if_false, lane_setLane_same, setLane_setLane, Option.map_some, Lane.withEov]

theorem withEov_calm {l : Lane} {v : Volume} (h : l.EovDue v) (list : List (Fin 8 × Nat × Nat)) (restore : l.restore = none)
    (verify : l.verify = none) (loan : l.access.loan = .none) : (l.withEov v list).calm = true := by
  simp [Lane.calm, Lane.withEov, Lane.jobsCalm, Lane.eovUnderWay, restore, verify, loan, h.state]

/-- What holds of a lane and of the other lane holds of both. -/
theorem both_lanes {p : LaneId → Prop} {k : LaneId} (here : p k) (there : p k.other) (j : LaneId) : p j := by
  cases k <;> cases j <;> assumption

/-- At the end of an event an EOV due is made pending, where the other lane has nothing to settle (R118). -/
theorem settle_eovDue (old : Part) {s : Part} (again : Bool) {k : LaneId} {v : Volume} (h : (s.lane k).EovDue v)
    (single : s.twin.on = false) (closed : ∀ i g, (s.stream i).lane = some k → (s.stream i).seg ≠ .filling g)
    (restore : (s.lane k).restore = none) (verify : (s.lane k).verify = none) (loan : (s.lane k).access.loan = .none)
    (other : (s.lane k.other).calm = true) :
    (settle old s again).lane k = (s.lane k).withEov v (s.eovEntries k) := by
  obtain ⟨l, made⟩ : ∃ l, (s.lane k).withEov v (s.eovEntries k) = l := ⟨_, rfl⟩
  obtain ⟨y, same⟩ : ∃ y, s.setLane k l = y := ⟨_, rfl⟩
  have here : y.lane k = l := same ▸ lane_setLane_same s k l
  have calm : ∀ j, (y.lane j).calm = true := by
    refine both_lanes (k := k) ?_ ?_
    · rw [here, ← made]
      exact withEov_calm h _ restore verify loan
    · rwa [← same, lane_setLane_other]
  have working : (y.lane k).resting = false := by rw [here, ← made, Lane.resting, Lane.withEov, h.state]; rfl
  have volumes : s.volumeStep k = y := by
    rw [← same, ← made, ← eovStep_due h single closed]
    simp only [Part.volumeStep, h.state]
  have judged : s.judgeVolumes = y := by
    cases k with
    | l0 => rw [Part.judgeVolumes, volumes, volumeStep_calm y _ (calm _), eovStep_calm y _ (calm _)]
    | l1 => rw [Part.judgeVolumes, volumeStep_calm s .l0 other, volumes, eovStep_calm y _ (calm _)]
  have logic : Part.volumeLogic old s again = y := by
    simp only [Part.volumeLogic, judged, rechoose_calm y (calm _) (calm _), judgeVolumes_calm y (calm _) (calm _), ite_self]
  have jobs : ∀ j, s.verifyStep j = s ∧ s.restoreStep j = s := both_lanes (k := k)
    ⟨verifyStep_of_none verify, restoreStep_of_none restore⟩ ⟨verifyStep_calm s _ other, restoreStep_calm s _ other⟩
  have settled : settle old s again = (y.follow .l0).follow .l1 := by
    simp only [settle, (jobs _).1, (jobs _).2, logic, loanStep_calm y _ (calm _)]
  have first := follow_working working .l0
  rw [settled, made, ← here, follow_working (first.symm ▸ working) .l1, first]

/-- The EOV list of a lane with no block sent is taken from the span entry of its volume (R118, step 2). -/
theorem eovEntries_of_span {s : Part} {k : LaneId} {v : Volume} {e : SpanEntry} (sent : (s.lane k).sent = [])
    (volume : (s.lane k).volume = some v) (span : s.findSpan v.label = some e) :
    s.eovEntries k = (List.finRange 8).filterMap (fun i => match e.ranges.find? (fun r => r.stream == i) with
      | some r => if r.last.flag then none else some (i, r.last.record, r.last.index + 1)
      | none => none) := by
  refine congrArg (fun f => List.filterMap f _) (funext fun i => ?_)
  simp only [Part.lastOnVolume, sent, volume, span, List.filterMap_nil, List.getLast?_nil, Option.bind_some]
  cases e.ranges.find? (fun r => r.stream == i) <;> rfl

/-! ## Early warning and END RUN (R117, R120) -/

/-- The lane in CLOSING with its whole send queue due (R117, R120). -/
def Lane.closing (l : Lane) : Lane := { l with state := .closing, run := { l.run with due := l.queue.length } }

/-- The lane in CLOSING by early warning (R117). -/
def Lane.warned (l : Lane) : Lane := { l.closing with run := { l.closing.run with warned := true } }

/-- The lane in CLOSING with no further volume to come (R120). -/
def Lane.stopped (l : Lane) : Lane := { l.closing with run := { l.closing.run with stopAfter := true } }

theorem closeBlock_of_none {s : Part} {k : LaneId} (none : (s.asm k).openBlock = none) : s.closeBlock k = s := by
  rw [Part.closeBlock, none]

theorem closeRequest_of_none {s : Part} {k : LaneId} (none : ∀ j, j = k ∨ s.twin.on = true → (s.asm j).openBlock = none) :
    s.closeRequest k = s := by
  refine closeBlock_of_none (none _ ?_)
  split
  · next on => exact .inr on
  · exact .inl rfl

/-- Whether the runs are one twin run rests on their being open and on their roles. -/
theorem twinRun_setLane {s : Part} {k : LaneId} {l : Lane} (opened : l.run.isOpen = (s.lane k).run.isOpen)
    (role : l.run.role = (s.lane k).run.role) : (s.setLane k l).twinRun = s.twinRun := by
  cases k <;> simp only [Part.lane, Pair.get] at opened role <;>
    simp only [Part.twinRun, Part.lane, Part.setLane, Pair.get, Pair.set, opened, role]

theorem warned_eq (s : Part) (k : LaneId) :
    ((s.enterClosing k).modLane k fun l => { l with run := { l.run with warned := true } }) = s.setLane k (s.lane k).warned := by
  rw [Part.enterClosing, Part.modLane, Part.modLane, lane_setLane_same, setLane_setLane]
  rfl

theorem earlyWarning_single {s : Part} {k : LaneId} (none : ∀ j, j = k ∨ s.twin.on = true → (s.asm j).openBlock = none)
    (alone : s.twinRun = false) : s.earlyWarning k = s.setLane k (s.lane k).warned := by
  have alone' : (s.setLane k (s.lane k).warned).twinRun = false := (twinRun_setLane (l := (s.lane k).warned) rfl rfl).trans alone
  simp only [Part.earlyWarning, closeRequest_of_none none, warned_eq, alone', Bool.false_and, Bool.false_eq_true, if_false]

theorem earlyWarning_twin {s : Part} {k : LaneId} (none : ∀ j, j = k ∨ s.twin.on = true → (s.asm j).openBlock = none)
    (both : s.twinRun = true) (other : (s.lane k.other).state = .append) :
    s.earlyWarning k = (s.setLane k (s.lane k).warned).setLane k.other (s.lane k.other).warned := by
  have both' : (s.setLane k (s.lane k).warned).twinRun = true := (twinRun_setLane (l := (s.lane k).warned) rfl rfl).trans both
  simp only [Part.earlyWarning, closeRequest_of_none none, warned_eq, both', lane_setLane_other, other, beq_self_eq_true, Bool.and_self, if_true]

theorem stopRun_eq {s : Part} {k : LaneId} (none : ∀ j, j = k ∨ s.twin.on = true → (s.asm j).openBlock = none)
    (waits : k ∉ s.pool.waiters) (state : (s.lane k).state = .append) : s.stopRun k = s.setLane k (s.lane k).stopped := by
  have leaves : ∀ l, (s.setLane k l).leaveWaiters k = s.setLane k l := by
    intro l
    have same : s.pool.waiters.filter (· != k) = s.pool.waiters :=
      List.filter_eq_self.mpr fun j m => bne_iff_ne.mpr fun e => waits (e ▸ m)
    unfold Part.leaveWaiters
    rw [setLane_pool, same]
    rfl
  have request : ∀ l, (s.setLane k l).closeRequest k = s.setLane k l := fun l => closeRequest_of_none none
  simp only [Part.stopRun, Part.modLane, request, leaves, lane_setLane_same, state, if_true, Part.enterClosing, setLane_setLane]
  rfl

/-! ## CLOSE VOLUME and END RUN as directives -/

/-- CLOSE VOLUME of a present lane by the lane's state (R117). -/
theorem closeVolume_cases (s : Part) (k : LaneId) (present : s.present k = true) :
    let closes := s.closeVolume (BitVec.ofNat 8 k.num)
    ((s.lane k).state = .append → closes = (s.earlyWarning k).accepted 0)
    ∧ ((s.lane k).state = .closing → closes = s.accepted 0)
    ∧ ((s.lane k).state ≠ .append → (s.lane k).state ≠ .closing → closes = s.refused .state) := by
  intro closes
  simp only [closes, Part.closeVolume, laneArg_ofNat s k present]
  refine ⟨fun append => by rw [append], fun closing => by rw [closing], fun notAppend notClosing => ?_⟩
  split
  · next append => exact absurd append notAppend
  · next closing => exact absurd closing notClosing
  · rfl

/-- END RUN of a lane that is not in APPEND or CLOSING, or of the twin lane of a run that goes on, names STATE (R120, R124). -/
theorem endRun_refused {s : Part} {k : LaneId} (present : s.present k = true)
    (why : ((s.lane k).state ≠ .append ∧ (s.lane k).state ≠ .closing)
      ∨ (s.twin.on = true ∧ k ≠ s.twin.primary ∧ (s.lane s.twin.primary).run.isOpen = true)) :
    s.endRunDirective (BitVec.ofNat 8 k.num) = s.refused .state := by
  simp only [Part.endRunDirective, laneArg_ofNat s k present]
  rcases why with state | twin
  · rw [if_pos state]
  · rw [if_pos twin, ite_self, ite_self]

/-- The streams of lane `k` have no open record (R120). -/
abbrev Part.streamsRest (s : Part) (k : LaneId) : Prop :=
  ∀ i, (s.stream i).lane = some k → (s.stream i).state = .closed ∨ (s.stream i).state = .idle

theorem boundStreams_rest {s : Part} {k : LaneId} (rests : s.streamsRest k) :
    (s.boundStreams k).any (fun i => (s.stream i).state != .closed && (s.stream i).state != .idle) = false := by
  rw [List.any_eq_false]
  intro i m
  simp only [Part.boundStreams, List.mem_filter, beq_iff_eq] at m
  rcases rests i m.2 with closed | idle
  · simp [closed]
  · simp [idle]

/-- END RUN of a lane in APPEND that is not the twin lane stops its run, and the twin lane's with it (R120, R124). -/
theorem endRun_taken {s : Part} {k : LaneId} (present : s.present k = true) (state : (s.lane k).state = .append)
    (rests : s.streamsRest k) (primary : s.twin.on = true → k = s.twin.primary)
    (stops : s.stopRun k = s.setLane k (s.lane k).stopped) :
    s.endRunDirective (BitVec.ofNat 8 k.num)
      = (if s.twin.on = true ∧ k = s.twin.primary ∧ (s.lane k.other).run.isOpen = true then
          (s.setLane k (s.lane k).stopped).stopRun k.other else s.setLane k (s.lane k).stopped).accepted 0 := by
  have working : ¬ ((s.lane k).state ≠ .append ∧ (s.lane k).state ≠ .closing) := fun h => h.1 state
  have own : ¬ (s.twin.on = true ∧ k ≠ s.twin.primary ∧ (s.lane s.twin.primary).run.isOpen = true) := fun h => h.2.1 (primary h.1)
  simp only [Part.endRunDirective, laneArg_ofNat s k present]
  rw [if_neg working, boundStreams_rest rests, if_neg Bool.false_ne_true, if_neg own, stops, lane_setLane_other]
  rfl

theorem isOpen_of_twinRun {s : Part} (both : s.twinRun = true) (j : LaneId) : (s.lane j).run.isOpen = true := by
  simp only [Part.twinRun, Bool.and_eq_true] at both
  cases j
  · exact both.1.1.1
  · exact both.1.1.2

/-- A directive's outcome is composed outside the lanes, the streams and the library. -/
theorem views_of_composed {p q : Part} {code : Nat} {r : Result} {d : Nat} (blocks : p.blocks = (q.composed code r d).blocks) :
    p.lanes = q.lanes ∧ p.streams = q.streams ∧ p.library = q.library :=
  have lanes : p.blocks.lanes = (q.composed code r d).blocks.lanes := congrArg Part.lanes blocks
  have streams : p.blocks.streams = (q.composed code r d).blocks.streams := congrArg Part.streams blocks
  have library : p.blocks.library = (q.composed code r d).blocks.library := congrArg Part.library blocks
  ⟨lanes, streams, library⟩

/-- A directive that the slot takes and that is judged with an outcome at once, by what the lanes then settle. -/
theorem directive_settles {c : Instr} {code : Nat} {f : Part → Judged} (hd : directiveOf c = some (code, f)) {s : State}
    (h : s.takes code) {x : Part} {r : Result} {d : Nat} (hx : f (s.judging code) = (x, some (r, d)))
    (still : x.still = (s.judging code).still) :
    ∃ (t : State) (again : Bool), exec c s = .next t ∧ t.pending = s.pending ∧ t.frame = (s.composed code r d).frame
      ∧ t.lanes = (settle s.toPart x again).lanes ∧ t.streams = (settle s.toPart x again).streams
      ∧ t.library = (settle s.toPart x again).library := by
  obtain ⟨t, next, pending, blocks, frame, -, -⟩ := event_blocks s (fun p => p.directive code f) h.1
  have effect := directive_taken s.toPart code f h
  rw [hx] at effect
  generalize chooseAgain s.toPart _ _ = again at effect
  rw [effect, conclude_some] at blocks frame
  have settled := (settle_still s.toPart x again).trans still
  have busy := congrArg (fun z : Still => z.unit.slot) settled
  rw [compose_frame _ code r d busy, composed_frame code r d settled] at frame
  rw [compose_blocks _ code r d busy] at blocks
  refine ⟨t, again, (exec_directiveOf hd s).trans next, pending, frame, ?_⟩
  exact views_of_composed blocks

/-- CLOSE VOLUME with nothing left to send makes the EOV pending at once (R117, R118). -/
theorem closeVolume_eov {s : State} {k : LaneId} {v : Volume} (present : s.present k = true) (single : s.twin.on = false)
    (append : (s.lane k).state = .append) (shut : (s.asm k).openBlock = none) (alone : s.twinRun = false) (takes : s.takes 0x31)
    (due : (s.lane k).warned.EovDue v) (closed : ∀ i g, (s.stream i).lane = some k → (s.stream i).seg ≠ .filling g)
    (restore : (s.lane k).restore = none) (verify : (s.lane k).verify = none) (loan : (s.lane k).access.loan = .none)
    (other : (s.lane k.other).calm = true) :
    ∃ t : State, exec (.closeVolume (BitVec.ofNat 8 k.num)) s = .next t ∧ t.pending = s.pending
      ∧ t.frame = (s.composed 0x31 .accepted 0).frame
      ∧ t.lane k = (s.lane k).warned.withEov v ((s.setLane k (s.lane k).warned).eovEntries k) := by
  have none : ∀ j, j = k ∨ s.twin.on = true → (s.asm j).openBlock = none := by
    rintro j (rfl | on)
    · exact shut
    · exact absurd (single.symm.trans on) Bool.false_ne_true
  have judged : (s.judging 0x31).closeVolume (BitVec.ofNat 8 k.num)
      = (((s.setLane k (s.lane k).warned).judging 0x31).accepted 0) := by
    rw [(closeVolume_cases (s.judging 0x31) k present).1 append, earlyWarning_single (s := s.judging 0x31) none alone]
    rfl
  obtain ⟨t, again, next, pending, frame, lanes, -, -⟩ := directive_settles
    (c := .closeVolume (BitVec.ofNat 8 k.num)) (x := (s.setLane k (s.lane k).warned).judging 0x31) rfl takes judged rfl
  have here : ((s.setLane k (s.lane k).warned).judging 0x31).lane k = (s.lane k).warned := lane_setLane_same s.toPart k _
  have settled := settle_eovDue s.toPart (s := (s.setLane k (s.lane k).warned).judging 0x31) again (here.symm ▸ due) single closed
    (here.symm ▸ restore) (here.symm ▸ verify) (here.symm ▸ loan)
    ((congrArg Lane.calm (lane_setLane_other s.toPart k (s.lane k).warned)).trans other)
  rw [here] at settled
  exact ⟨t, next, pending, frame, (congrArg (fun p => p.get k) lanes).trans settled⟩

/-- Settles O38: `closeVolume_cases` with the early warning of one lane or of both, `endRun_refused` and `endRun_taken`; the EOV at
once is `settle_eovDue`. -/
theorem closeVolumeAndEndRun : Obligations.CloseVolumeAndEndRun := by
  intro s k present b l closing warned stopped rests
  refine ⟨fun single append shut alone => ?_, fun on both shut => ?_,
    fun v e single append shut alone takes queue sent pending owed restore verify loan volume room span closed other => ?_,
    fun closes takes => ?_, fun notAppend notClosing => ?_⟩
  · have none : ∀ j, j = k ∨ s.twin.on = true → (s.asm j).openBlock = none := by
      rintro j (rfl | on)
      · exact shut
      · exact absurd (single.symm.trans on) Bool.false_ne_true
    refine ⟨fun takes => ?_, fun takes rest waits => ?_⟩
    · refine judges_of (c := .closeVolume b) rfl takes (((closeVolume_cases (s.judging 0x31) k present).1 append).trans ?_)
      rw [earlyWarning_single (s := s.judging 0x31) none alone]
      rfl
    · refine judges_of (c := .endRun b) rfl takes ((endRun_taken (s := s.judging 0x32) present append rest
        (fun on => absurd (single.symm.trans on) Bool.false_ne_true) (stopRun_eq none waits append)).trans ?_)
      rw [if_neg fun h => absurd (single.symm.trans h.1) Bool.false_ne_true]
      rfl
  · have none : ∀ j k, j = k ∨ s.twin.on = true → (s.asm j).openBlock = none := fun j _ _ => (shut j).2
    refine ⟨fun takes => ?_, fun takes primary rest waits => ?_, fun takes twin _ => ?_⟩
    · refine judges_of (c := .closeVolume b) rfl takes (((closeVolume_cases (s.judging 0x31) k present).1 (shut k).1).trans ?_)
      rw [earlyWarning_twin (s := s.judging 0x31) (fun j => none j k) both (shut k.other).1]
      rfl
    · have free : ∀ j, j ∉ s.pool.waiters := fun j => waits ▸ List.not_mem_nil
      refine judges_of (c := .endRun b) rfl takes ((endRun_taken (s := s.judging 0x32) present (shut k).1 rest (fun _ => primary)
        (stopRun_eq (fun j => none j k) (free k) (shut k).1)).trans ?_)
      have second := stopRun_eq (s := (s.judging 0x32).setLane k (s.lane k).stopped) (fun j => none j k.other) (free k.other)
        ((congrArg Lane.state (lane_setLane_other s.toPart k _)).trans (shut k.other).1)
      rw [if_pos ⟨on, primary, isOpen_of_twinRun both k.other⟩]
      refine (congrArg (fun p : Part => p.accepted 0) second).trans ?_
      rw [lane_setLane_other]
      rfl
    · exact judges_refused (c := .endRun b) rfl takes (endRun_refused (s := s.judging 0x32) present
        (.inr ⟨on, twin, isOpen_of_twinRun both _⟩))
  · have due : l.warned.EovDue v := { state := rfl, volume := volume, owed := owed, room := room
                                      due := by simp [Lane.headDue, Lane.warned, Lane.closing, queue]
                                      underWay := by simp [Lane.eovUnderWay, Lane.warned, Lane.closing, pending, sent] }
    obtain ⟨t, next, rest, frame, lane⟩ := closeVolume_eov present single append shut alone takes due closed restore verify loan other
    refine ⟨t, next, rest, frame, lane.trans ?_⟩
    have here : (s.setLane k l.warned).lane k = l.warned := lane_setLane_same s.toPart k l.warned
    have entries : (s.setLane k l.warned).eovEntries k = _ :=
      eovEntries_of_span ((congrArg Lane.sent here).trans sent) ((congrArg Lane.volume here).trans volume) span
    refine (congrArg (l.warned.withEov v) entries).trans ?_
    simp only [Lane.withEov, Lane.warned, Lane.closing, Lane.lowestGiven, queue, owed, l]
    rfl
  · exact judges_of (c := .closeVolume b) rfl takes ((closeVolume_cases (s.judging 0x31) k present).2.1 closes)
  · exact ⟨fun takes => judges_refused (c := .closeVolume b) rfl takes
        ((closeVolume_cases (s.judging 0x31) k present).2.2 notAppend notClosing),
      fun takes => judges_refused (c := .endRun b) rfl takes (endRun_refused (s := s.judging 0x32) present
        (.inl ⟨notAppend, notClosing⟩))⟩

end Sys2Proof.Machine
end

section
/-! SUPPORT. What CANCEL LANE does with the lane's streams, volume, read jobs and bay (R68, R106, R122). Settles O40. -/

namespace Sys2Proof.Machine

/-! ## Streams faulted by their lane -/

/-- A stream that is FAULTED holds no write: those judged again are refused, and no stream, lane, buffer or location changes (R47). -/
theorem rejudgeFrom_faulted (i : Fin 8) (xs : List (Waiting × Nat)) {s : Part} (faulted : (s.stream i).state = .faulted) :
    s.SameButTransactions (rejudgeFrom i xs s) := by
  induction xs generalizing s with
  | nil => exact ⟨_, _, _, _, rfl⟩
  | cons x xs ih =>
    have refuses := refuse_sameButTransactions s x.1.id .noRecord (.intake i)
    have still_faulted : ((s.refuse x.1.id .noRecord (.intake i)).stream i).state = .faulted := by
      obtain ⟨_, _, _, _, same⟩ := refuses
      rwa [same]
    have verdict : (s.stream i).judge (s.intakeSize i) x.2 (enabledBytes x.1.txn).length = .refuse .noRecord := by
      simp [Stream.judge, faulted]
    rw [rejudgeFrom, verdict]
    exact refuses.trans (ih still_faulted)

/-- A stream faulted, with its held writes judged again (R58). -/
theorem faultStream_views (s : Part) (i : Fin 8) (c : StreamCause) :
    (s.faultStream i c).lanes = s.lanes ∧ (s.faultStream i c).library = s.library ∧ (s.faultStream i c).pool = s.pool
      ∧ (s.faultStream i c).streams = (s.setStream i { (s.stream i).dropped with state := .faulted, cause := c }).streams := by
  have faulted : (((s.modStream i (fun x => { x.dropped with state := .faulted, cause := c })).latch .streamFault).stream i).state
      = .faulted := by simp
  obtain ⟨_, _, _, _, same⟩ := rejudgeFrom_faulted i (Part.heldIntake _ i) faulted
  rw [Part.faultStream, Part.rejudge, same]
  exact ⟨rfl, rfl, rfl, rfl⟩

/-- Streams faulted one after the other are all FAULTED with the cause, and so is what was before. -/
theorem foldl_faultStream (c : StreamCause) (xs : List (Fin 8)) (s : Part) (i : Fin 8)
    (h : i ∈ xs ∨ ((s.stream i).state = .faulted ∧ (s.stream i).cause = c)) :
    let t := xs.foldl (fun s i => s.faultStream i c) s
    (t.stream i).state = .faulted ∧ (t.stream i).cause = c := by
  induction xs generalizing s with
  | nil => exact h.resolve_left List.not_mem_nil
  | cons x xs ih =>
    refine ih _ ?_
    obtain ⟨-, -, -, streams⟩ := faultStream_views s x c
    have after : (s.faultStream x c).stream i = (s.setStream x { (s.stream x).dropped with state := .faulted, cause := c }).stream i :=
      congrArg (fun v : Vector Stream 8 => v[i]) streams
    rw [after]
    by_cases same : x = i
    · subst same
      simp
    · rw [stream_setStream_ne _ _ _ _ same]
      exact h.imp_left fun m => (List.mem_cons.mp m).resolve_left (Ne.symm same)

/-! ## The volume given up (R122) -/

theorem mem_locs (p : Loc) : p ∈ locs := List.mem_finRange p

/-- The one element that meets a test is the one found. -/
theorem find?_unique {α : Type} {f : α → Bool} {xs : List α} {p : α} (mem : p ∈ xs) (only : ∀ q, f q = true ↔ q = p) :
    xs.find? f = some p := by
  cases found : xs.find? f with
  | none => exact absurd ((only p).mpr rfl) (List.find?_eq_none.mp found p mem)
  | some q => rw [(only q).mp (List.find?_some found)]

theorem setCartridge_unique {s : Part} {label : Label} {p : Loc} (only : ∀ q, (s.loc q).label = some label ↔ q = p) (c : CartState) :
    s.setCartridge label c = s.setLoc p { s.loc p with state := some c } := by
  have found : locs.find? (fun q => (s.loc q).label == some label) = some p :=
    find?_unique (mem_locs p) fun q => by rw [beq_iff_eq, only]
  rw [Part.setCartridge, found]

theorem findLabel_unique {s : Part} {label : Label} {p : Loc} (only : ∀ q, (s.loc q).label = some label ↔ q = p)
    (occupied : (s.loc p).occ = .occupied) : s.findLabel label = some p :=
  find?_unique (mem_locs p) fun q => by
    rw [Bool.and_eq_true, beq_iff_eq, beq_iff_eq, only]
    exact ⟨And.right, fun e => ⟨e ▸ occupied, e⟩⟩

/-- The lane with its volume left: no volume and no chosen cartridge, and nothing of the run that belonged to them (R122). -/
def Lane.leftVolume (l : Lane) : Lane :=
  { l with volume := none, stale := []
           run := { l.run with
             chosen := none, warned := false, due := 0, eovList := [], absentFrom := 0
             capacities := l.run.capacities.filter (fun c => c.1 ≠ l.run.nextVolume) } }

/-- With no cartridge chosen on either lane no limit is set. -/
theorem setLimits_of_none {s : Part} (g : Nat → Nat → Nat) (none : ∀ k, (s.lane k).run.chosen = none) : s.setLimits g = s := by
  simp [Part.setLimits, none]

/-- Where the other lane has chosen no cartridge, a volume left changes no limit. -/
theorem leaveVolume_eq {s : Part} {k : LaneId} (other : (s.lane k.other).run.chosen = none) :
    s.leaveVolume k = s.setLane k (s.lane k).leftVolume := by
  refine setLimits_of_none _ (both_lanes (k := k) ?_ ?_)
  · rw [Part.modLane, lane_setLane_same]
  · rw [Part.modLane, lane_setLane_other, other]

theorem markChosen_views (s : Part) (k : LaneId) (c : CartState) :
    (s.markChosen k c).lanes = s.lanes ∧ (s.markChosen k c).streams = s.streams ∧ (s.markChosen k c).pool = s.pool := by
  unfold Part.markChosen Part.setCartridge
  split
  · split <;> exact ⟨rfl, rfl, rfl⟩
  · exact ⟨rfl, rfl, rfl⟩

theorem mirror_views (s : Part) (k : LaneId) (f : SpanEntry → SpanEntry) :
    (s.mirror k f).lanes = s.lanes ∧ (s.mirror k f).streams = s.streams ∧ (s.mirror k f).pool = s.pool
      ∧ (s.mirror k f).library = s.library := by
  unfold Part.mirror
  split <;> exact ⟨rfl, rfl, rfl, rfl⟩

/-- A run's volume given up at CANCEL LANE: what it leaves of lanes, streams and pool (R122). -/
structure Part.GivesUpVolume (s t : Part) (k : LaneId) : Prop where
  state : (t.lane k).state = (s.lane k).state
  other : t.lane k.other = s.lane k.other
  streams : t.streams = s.streams
  pool : t.pool = s.pool

theorem givesUpVolume_of_lanes {s t : Part} (k : LaneId) (lanes : t.lanes = s.lanes) (streams : t.streams = s.streams)
    (pool : t.pool = s.pool) : s.GivesUpVolume t k :=
  ⟨congrArg (fun l => (l.get k).state) lanes, congrArg (fun l => l.get k.other) lanes, streams, pool⟩

/-- An open volume given up: its cartridge marked INTERRUPTED, its span entry mirrored, and the volume left (R122). -/
theorem interruptVolume_open {s : Part} {k : LaneId} (opened : (s.lane k).volumeOpen = true)
    (other : (s.lane k.other).run.chosen = none) :
    s.GivesUpVolume (s.interruptVolume k) k ∧ (s.interruptVolume k).library = (s.markChosen k .interrupted).library := by
  obtain ⟨m, marked⟩ : ∃ m, (s.markChosen k .interrupted).mirror k (fun e => { e with mirror := .interrupted }) = m := ⟨_, rfl⟩
  obtain ⟨lanes, streams, pool⟩ := markChosen_views s k .interrupted
  obtain ⟨lanes', streams', pool', library⟩ := mirror_views (s.markChosen k .interrupted) k (fun e => { e with mirror := .interrupted })
  rw [marked] at lanes' streams' pool' library
  have gave := givesUpVolume_of_lanes (s := s) k (lanes'.trans lanes) (streams'.trans streams) (pool'.trans pool)
  have left : s.interruptVolume k = m.setLane k (m.lane k).leftVolume := by
    rw [← leaveVolume_eq (gave.other ▸ other), ← marked]
    simp only [Part.interruptVolume, opened, if_true]
  rw [left]
  refine ⟨⟨?_, ?_, gave.streams, gave.pool⟩, library⟩
  · rw [lane_setLane_same]
    exact gave.state
  · rw [lane_setLane_other]
    exact gave.other

theorem interruptVolume_labelling {s : Part} {k : LaneId} (labelling : (s.lane k).state = .labelling) :
    s.interruptVolume k = s.markChosen k .interrupted := by
  simp [Part.interruptVolume, Lane.volumeOpen, labelling]

theorem cancelVolume_gives {s : Part} {k : LaneId} (other : (s.lane k.other).run.chosen = none) :
    s.GivesUpVolume (s.cancelVolume k) k := by
  unfold Part.cancelVolume
  dsimp only
  split
  · by_cases opened : (s.lane k).volumeOpen = true
    · exact (interruptVolume_open opened other).1
    · next written =>
      obtain ⟨lanes, streams, pool⟩ := markChosen_views s k .interrupted
      rw [interruptVolume_labelling (written.resolve_left opened)]
      exact givesUpVolume_of_lanes k lanes streams pool
  · split
    · obtain same | ⟨c, p, -, -, -, same⟩ := returnChosen_cases s k <;> rw [same] <;> exact givesUpVolume_of_lanes k rfl rfl rfl
    · exact givesUpVolume_of_lanes k rfl rfl rfl

/-- The chosen cartridge of a lane with a volume being written becomes INTERRUPTED (R122). -/
theorem cancelVolume_written {s : Part} {k : LaneId} {c : Chosen} {p : Loc} (other : (s.lane k.other).run.chosen = none)
    (chosen : (s.lane k).run.chosen = some c) (only : ∀ q, (s.loc q).label = some c.label ↔ q = p)
    (written : (s.lane k).volumeOpen = true ∨ (s.lane k).state = .labelling) :
    (s.cancelVolume k).library = (s.setLoc p { s.loc p with state := some .interrupted }).library := by
  have marked : s.markChosen k .interrupted = s.setLoc p { s.loc p with state := some .interrupted } := by
    rw [Part.markChosen, chosen]
    exact setCartridge_unique only _
  rw [Part.cancelVolume, if_pos written, ← marked]
  by_cases opened : (s.lane k).volumeOpen = true
  · exact (interruptVolume_open opened other).2
  · rw [interruptVolume_labelling (written.resolve_left opened)]

/-- The chosen cartridge of a lane with no volume being written returns to SCRATCH where it is OPEN and no LABEL was sent on it,
and stays as it is else (R122). -/
theorem cancelVolume_unwritten {s : Part} {k : LaneId} {c : Chosen} {p : Loc}
    (chosen : (s.lane k).run.chosen = some c) (occupied : (s.loc p).occ = .occupied)
    (only : ∀ q, (s.loc q).label = some c.label ↔ q = p)
    (unwritten : ¬ ((s.lane k).volumeOpen = true ∨ (s.lane k).state = .labelling)) :
    (s.cancelVolume k).library = if (s.loc p).state = some .opened ∧ c.labelled = false
      then (s.setLoc p { s.loc p with state := some .scratch }).library else s.library := by
  have found := findLabel_unique only occupied
  have opened : s.chosenOpen k = ((s.loc p).state == some .opened) := by
    simp only [Part.chosenOpen, chosen, Option.bind_some, found]
  rw [Part.cancelVolume, if_neg unwritten, opened]
  by_cases isOpen : (s.loc p).state = some .opened
  · cases labelled : c.labelled <;>
      simp [isOpen, labelled, Part.returnChosen, Part.returnScratch, chosen, found, Part.touch]
  · simp [isOpen]

/-! ## Read jobs ended (R106, R156, R166, R173) -/

/-- The lane without what a read job leaves on it. -/
def Lane.withoutJobs (l : Lane) : Lane :=
  { l with restore := none, lastRestore := none, verify := none, lastVerify := none, access := Access.none
           unpack := Unpack.empty false, buffer := none }

/-- The lane has no read job, waits for no lender and follows its bay. -/
structure Lane.AtRest (l : Lane) : Prop where
  restore : l.restore = none
  verify : l.verify = none
  loan : l.access.loan ≠ .unloading
  resting : l.resting = true

/-- `t` is `s` with lane `k`'s read jobs further ended: no stream and no location record has changed, of the lane only what
belongs to its read jobs, and a lane at rest beside it rests on. -/
structure Part.EndsJobs (s t : Part) (k : LaneId) : Prop where
  streams : t.streams = s.streams
  library : t.library = s.library
  lane : (t.lane k).withoutJobs = (s.lane k).withoutJobs
  restore : (s.lane k).restore = none → (t.lane k).restore = none
  verify : (s.lane k).verify = none → (t.lane k).verify = none
  other : (s.lane k.other).AtRest → (t.lane k.other).AtRest

theorem Part.EndsJobs.trans {s t u : Part} {k : LaneId} (h : s.EndsJobs t k) (g : t.EndsJobs u k) : s.EndsJobs u k where
  streams := g.streams.trans h.streams
  library := g.library.trans h.library
  lane := g.lane.trans h.lane
  restore := g.restore ∘ h.restore
  verify := g.verify ∘ h.verify
  other := g.other ∘ h.other

theorem endsJobs_of_views {s t : Part} {k : LaneId} (lanes : t.lanes = s.lanes) (streams : t.streams = s.streams)
    (library : t.library = s.library) : s.EndsJobs t k := by
  have lane : ∀ j, t.lane j = s.lane j := fun j => congrArg (fun l => l.get j) lanes
  exact ⟨streams, library, by rw [lane], by rw [lane]; exact id, by rw [lane]; exact id, by rw [lane]; exact id⟩

theorem endsJobs_refl (s : Part) (k : LaneId) : s.EndsJobs s k := endsJobs_of_views rfl rfl rfl

theorem endsJobs_setLane {s : Part} {k : LaneId} {l : Lane} (lane : l.withoutJobs = (s.lane k).withoutJobs)
    (restore : (s.lane k).restore = none → l.restore = none) (verify : (s.lane k).verify = none → l.verify = none) :
    s.EndsJobs (s.setLane k l) k :=
  ⟨rfl, rfl, by rwa [lane_setLane_same], by rwa [lane_setLane_same], by rwa [lane_setLane_same], by rw [lane_setLane_other]; exact id⟩

theorem endsJobs_setOther {s : Part} {k : LaneId} {l : Lane} (other : (s.lane k.other).AtRest → l.AtRest) :
    s.EndsJobs (s.setLane k.other l) k :=
  have lane := lane_other_setLane s k l
  ⟨rfl, rfl, by rw [lane], by rw [lane]; exact id, by rw [lane]; exact id, by rwa [lane_setLane_same]⟩

theorem restState_resting (s : Part) (k : LaneId) : s.restState k = .empty ∨ s.restState k = .idle := by
  unfold Part.restState
  split
  · exact .inr rfl
  · exact .inl rfl

theorem rest_eq (s : Part) (k : LaneId) :
    s.rest k = s.setLane k { s.lane k with state := s.restState k }
    ∨ s.rest k = (s.setLane k { s.lane k with state := s.restState k }).touch (.lane k) := by
  unfold Part.rest
  dsimp only
  split
  · exact .inl rfl
  · exact .inr rfl

/-- The loan of the other lane's cartridge ends with that lane at rest. -/
theorem endLending_endsJobs (s : Part) (k : LaneId) : s.EndsJobs (s.endLending k.other) k := by
  unfold Part.endLending
  split
  · obtain ⟨t, cleared⟩ : ∃ t, s.modLane k.other (fun l => { l with lending := none }) = t := ⟨_, rfl⟩
    have first : s.EndsJobs t k := cleared ▸ endsJobs_setOther fun h => ⟨h.restore, h.verify, h.loan, h.resting⟩
    have second : t.EndsJobs (t.setLane k.other { t.lane k.other with state := t.restState k.other }) k :=
      endsJobs_setOther fun h => ⟨h.restore, h.verify, h.loan, by
        rcases restState_resting t k.other with e | e <;> simp [Lane.resting, e]⟩
    rw [cleared]
    rcases rest_eq t k.other with same | same <;> rw [same]
    · exact first.trans second
    · exact (first.trans second).trans (endsJobs_of_views rfl rfl rfl)
  · exact endsJobs_refl s k

theorem orphan_endsJobs (s : Part) (k : LaneId) : s.EndsJobs (s.orphan k.other) k := by
  unfold Part.orphan
  split
  · split
    · exact endLending_endsJobs s k
    · exact endsJobs_setOther fun h => ⟨h.restore, h.verify, h.loan, h.resting⟩
  · exact endsJobs_refl s k

theorem dropAccess_endsJobs (s : Part) (k : LaneId) : s.EndsJobs (s.dropAccess k) k := by
  obtain ⟨t, dropped⟩ : ∃ t, (s.clearUnpack k).modLane k (fun l => { l with buffer := none, access := Access.none }) = t := ⟨_, rfl⟩
  have first : s.EndsJobs t k := by
    rw [← dropped, Part.clearUnpack, Part.modLane, Part.modLane, setLane_setLane, lane_setLane_same]
    exact endsJobs_setLane rfl id id
  unfold Part.dropAccess
  rw [dropped]
  dsimp only
  split
  · exact first.trans (orphan_endsJobs t k)
  · exact first

theorem reportOpen_endsJobs (s : Part) (k : LaneId) (record produced : Nat) (r : RecResult) (rewrite : Bool) :
    s.EndsJobs (s.reportOpen k record produced r rewrite) k := by
  unfold Part.reportOpen
  split
  · next j restore =>
    dsimp only
    refine Part.EndsJobs.trans ?_ (endsJobs_setLane rfl (fun none => congrArg (Option.map _) none) id)
    split
    · split <;> exact endsJobs_of_views rfl rfl rfl
    · exact endsJobs_refl s k
  · exact endsJobs_refl s k

theorem nameRestore_endsJobs (s : Part) (k : LaneId) (r : RecResult) (rewrite : Bool) :
    s.EndsJobs (s.nameRestore k r rewrite) k := by
  unfold Part.nameRestore
  split
  · split
    · exact (reportOpen_endsJobs s k _ _ r rewrite).trans (endsJobs_setLane rfl id id)
    · exact endsJobs_refl s k
  · exact endsJobs_refl s k

/-- A restore job over: none is left (R166). -/
theorem restoreOver_endsJobs (s : Part) (k : LaneId) (r : JobResult) :
    s.EndsJobs (s.restoreOver k r) k ∧ ((s.restoreOver k r).lane k).restore = none := by
  unfold Part.restoreOver
  split
  · next none => exact ⟨endsJobs_refl s k, none⟩
  · next j restore =>
    obtain ⟨t, finished⟩ : ∃ t, s.modLane k (fun l => { l with restore := none, lastRestore := some { j with result := r } }) = t := ⟨_, rfl⟩
    have first : s.EndsJobs t k := finished ▸ endsJobs_setLane rfl (fun _ => rfl) id
    have none : (t.lane k).restore = none := by rw [← finished, Part.modLane, lane_setLane_same]
    rw [finished]
    dsimp only
    split
    · exact ⟨first.trans (endsJobs_of_views rfl rfl rfl), none⟩
    · have dropped := dropAccess_endsJobs t k
      exact ⟨(first.trans dropped).trans (endsJobs_of_views rfl rfl rfl), dropped.restore none⟩

/-- A verify job over: none is left (R173). -/
theorem verifyOver_endsJobs (s : Part) (k : LaneId) (r : JobResult) :
    s.EndsJobs (s.verifyOver k r) k ∧ ((s.verifyOver k r).lane k).verify = none := by
  unfold Part.verifyOver
  split
  · next none => exact ⟨endsJobs_refl s k, none⟩
  · next j verify =>
    obtain ⟨t, finished⟩ : ∃ t, s.modLane k (fun l => { l with verify := none, lastVerify := some { j with result := r } }) = t := ⟨_, rfl⟩
    have first : s.EndsJobs t k := finished ▸ endsJobs_setLane rfl id (fun _ => rfl)
    have none : (t.lane k).verify = none := by rw [← finished, Part.modLane, lane_setLane_same]
    rw [finished]
    dsimp only
    split
    · exact ⟨first.trans (endsJobs_of_views rfl rfl rfl), none⟩
    · have dropped := dropAccess_endsJobs t k
      exact ⟨(first.trans dropped).trans (endsJobs_of_views rfl rfl rfl), dropped.verify none⟩

/-- CANCELLED ends the lane's restore and its verify (R106). -/
theorem endJobs_cancelled (s : Part) (k : LaneId) :
    s.EndsJobs (s.endJobs k .cancelled) k ∧ ((s.endJobs k .cancelled).lane k).restore = none
      ∧ ((s.endJobs k .cancelled).lane k).verify = none := by
  obtain ⟨t, ended, none, same⟩ : ∃ t, s.EndsJobs t k ∧ (t.lane k).restore = none
      ∧ s.endJobs k .cancelled = t.verifyOver k .cancelled := by
    unfold Part.endJobs
    split
    · next j restore =>
      have early : (j.early && JobResult.cancelled == JobResult.laneFault) = false := Bool.and_false _
      simp only [early, Bool.false_eq_true, if_false]
      obtain ⟨t, named⟩ : ∃ t, (if j.phase = RestorePhase.waitingVerify then s else s.nameRestore k .incomplete true) = t := ⟨_, rfl⟩
      have first : s.EndsJobs t k := by
        rw [← named]
        split
        · exact endsJobs_refl s k
        · exact nameRestore_endsJobs s k _ _
      rw [named]
      obtain ⟨finished, none⟩ := restoreOver_endsJobs t k .cancelled
      exact ⟨_, first.trans finished, none, rfl⟩
    · next none => exact ⟨s, endsJobs_refl s k, none, rfl⟩
  obtain ⟨finished, verify⟩ := verifyOver_endsJobs t k .cancelled
  rw [same]
  exact ⟨ended.trans finished, finished.restore none, verify⟩

/-- The lane's changer entries withdrawn (R106): a loan that stood in one ends. -/
theorem withdraw_endsJobs (s : Part) (k : LaneId) : s.EndsJobs (s.withdraw k) k := by
  unfold Part.withdraw
  dsimp only
  refine List.foldlRecOn (motive := fun t => s.EndsJobs t k) _ _ (endsJobs_of_views rfl rfl rfl) fun t ended e _ => ?_
  unfold Part.loanDone
  split
  · exact ended.trans (endLending_endsJobs t k)
  · exact ended

theorem rest_other_lane (s : Part) (k : LaneId) : (s.rest k.other).lane k = s.lane k := by
  rcases rest_eq s k.other with same | same
  · rw [same, lane_other_setLane]
  · rw [same, touch_lane, lane_other_setLane]

theorem endLending_lane (s : Part) (k : LaneId) : (s.endLending k.other).lane k = s.lane k := by
  unfold Part.endLending
  split
  · exact (rest_other_lane _ k).trans (lane_other_setLane s k _)
  · rfl

theorem withdraw_lane (s : Part) (k : LaneId) : (s.withdraw k).lane k = s.lane k := by
  unfold Part.withdraw
  dsimp only
  refine foldl_view (fun t => t.lane k) _ (fun t e => ?_) _ _
  unfold Part.loanDone
  split
  · exact endLending_lane t k
  · rfl

/-! ## Views -/

theorem stream_of_streams {s t : Part} (streams : s.streams = t.streams) (i : Fin 8) : s.stream i = t.stream i :=
  congrArg (fun v : Vector Stream 8 => v[i]) streams

theorem loc_of_library {s t : Part} (library : s.library = t.library) (p : Loc) : s.loc p = t.loc p :=
  congrArg (fun l : Library => l.records[p]) library

theorem lane_of_lanes {s t : Part} (lanes : s.lanes = t.lanes) (k : LaneId) : s.lane k = t.lane k :=
  congrArg (fun l => l.get k) lanes

/-! ## CANCEL LANE (R106) -/

/-- The buffers `bs` made blank. -/
def Part.blankAll (s : Part) (bs : List Nat) : Part := bs.foldl (fun s b => s.setBuffer b Buffer.blank) s

theorem blankAll_eq (s : Part) (bs : List Nat) : ∃ bufs, s.blankAll bs = { s with pool := { s.pool with buffers := bufs } } := by
  induction bs generalizing s with
  | nil => exact ⟨_, rfl⟩
  | cons b bs ih => exact ih (s.setBuffer b Buffer.blank)

/-- With no lane waiting for a buffer, buffers released become FREE and are given to nobody (R64). -/
theorem release_of_no_waiters {s : Part} (bs : List Nat) (waiters : s.pool.waiters = []) :
    s.release bs = ({ s.blankAll bs with pool := { (s.blankAll bs).pool with free := s.pool.free ++ bs } }).touch .pool := by
  obtain ⟨bufs, same⟩ := blankAll_eq s bs
  unfold Part.release
  change giveFrom (s.blankAll bs).pool.waiters (({ s.blankAll bs with
    pool := { (s.blankAll bs).pool with free := (s.blankAll bs).pool.free ++ bs } } : Part).touch .pool) = _
  rw [same, waiters, giveFrom]

/-- With no lane waiting for a buffer, the lane's claims on the pool go with no effect on lanes, streams and locations (R68). -/
theorem cancelClaims_views {s : Part} (k : LaneId) (waiters : s.pool.waiters = []) :
    (s.cancelClaims k).lanes = s.lanes ∧ (s.cancelClaims k).streams = s.streams ∧ (s.cancelClaims k).library = s.library := by
  have released : ∀ (t : Part) bs, t.pool.waiters = [] → (t.release bs).lanes = t.lanes ∧ (t.release bs).streams = t.streams
      ∧ (t.release bs).library = t.library := by
    intro t bs none
    obtain ⟨bufs, same⟩ := blankAll_eq t bs
    rw [release_of_no_waiters bs none, same]
    exact ⟨rfl, rfl, rfl⟩
  refine released _ _ ?_
  simp [Part.leaveWaiters, Part.setAsm, waiters]

/-- The lane emptied by CANCEL LANE, its read jobs aside (R106). -/
def Lane.emptied (l : Lane) : Lane :=
  { l with
    queue := [], pending := none, owedEov := none, sent := [], stale := [], serving := none, ret := none, outstanding := none
    lending := none, volume := none, run := Run.none, held := false }

/-- The streams of lane `k` that CANCEL LANE faults (R106). -/
def Part.liveStreams (s : Part) (k : LaneId) : List (Fin 8) :=
  (s.boundStreams k).filter (fun i => (s.stream i).state != .faulted && (s.stream i).state != .closed)

/-- The part with the lane's streams faulted by CANCEL LANE (R106). -/
def Part.streamsCancelled (s : Part) (k : LaneId) : Part := (s.liveStreams k).foldl (fun s i => s.faultStream i .cancelled) s

theorem streamsCancelled_views (s : Part) (k : LaneId) :
    (s.streamsCancelled k).lanes = s.lanes ∧ (s.streamsCancelled k).library = s.library ∧ (s.streamsCancelled k).pool = s.pool :=
  ⟨foldl_view Part.lanes _ (fun t i => (faultStream_views t i .cancelled).1) _ s,
    foldl_view Part.library _ (fun t i => (faultStream_views t i .cancelled).2.1) _ s,
    foldl_view Part.pool _ (fun t i => (faultStream_views t i .cancelled).2.2.1) _ s⟩

theorem streamsCancelled_stream {s : Part} {k : LaneId} {i : Fin 8} (bound : (s.stream i).lane = some k)
    (notClosed : (s.stream i).state ≠ .closed) (notFaulted : (s.stream i).state ≠ .faulted) :
    ((s.streamsCancelled k).stream i).state = .faulted ∧ ((s.streamsCancelled k).stream i).cause = .cancelled := by
  refine foldl_faultStream .cancelled _ s i (.inl ?_)
  simp [Part.liveStreams, Part.boundStreams, streamIds, bound, notClosed, notFaulted]

/-- CANCEL LANE up to the lane's queues and run: streams faulted, volume given up, lane emptied (R106). -/
def Part.laneEmptied (s : Part) (k : LaneId) : Part :=
  let v := (s.streamsCancelled k).cancelVolume k
  v.setLane k (v.lane k).emptied

/-- CANCEL LANE's end of what the lane holds elsewhere: buffers, read jobs, changer entries (R68, R106). -/
def Part.holdsCancelled (s : Part) (k : LaneId) : Part :=
  (((s.cancelClaims k).endJobs k .cancelled).modLane k (fun l => { l with buffer := none, access := Access.none })).withdraw k

/-- With no run on the other lane, CANCEL LANE works in three stages: the lane emptied, what it holds elsewhere given up, and the
lane at rest by its bay unless in FAULT. -/
theorem cancelWork_stages {s : Part} {k : LaneId} (notOpen : ((s.laneEmptied k).lane k.other).run.isOpen = false) :
    s.cancelWork k = if (((s.laneEmptied k).holdsCancelled k).lane k).state = .fault then (s.laneEmptied k).holdsCancelled k
      else ((s.laneEmptied k).holdsCancelled k).rest k := by
  have idle : (s.laneEmptied k).modLane k.other
      (fun l => if l.run.isOpen then { l with run := { l.run with limit := l.run.ownCapacity } } else l) = s.laneEmptied k := by
    rw [Part.modLane, notOpen]
    exact setLane_lane _ k.other
  have stages : s.cancelWork k = (fun e : Part => if ((e.holdsCancelled k).lane k).state = .fault then e.holdsCancelled k
      else (e.holdsCancelled k).rest k) ((s.laneEmptied k).modLane k.other
        (fun l => if l.run.isOpen then { l with run := { l.run with limit := l.run.ownCapacity } } else l)) := rfl
  rw [stages, idle]

theorem holdsCancelled_ends {s : Part} (k : LaneId) (waiters : s.pool.waiters = []) :
    s.EndsJobs (s.holdsCancelled k) k ∧ ((s.holdsCancelled k).lane k).restore = none
      ∧ ((s.holdsCancelled k).lane k).verify = none ∧ ((s.holdsCancelled k).lane k).access = Access.none := by
  obtain ⟨lanes, streams, library⟩ := cancelClaims_views k waiters
  obtain ⟨ended, restore, verify⟩ := endJobs_cancelled (s.cancelClaims k) k
  obtain ⟨j, jobs⟩ : ∃ j, (s.cancelClaims k).endJobs k .cancelled = j := ⟨_, rfl⟩
  obtain ⟨a, dropped⟩ : ∃ a, j.modLane k (fun l => { l with buffer := none, access := Access.none }) = a := ⟨_, rfl⟩
  have lane : a.lane k = { j.lane k with buffer := none, access := Access.none } := dropped ▸ lane_setLane_same j k _
  have drops : j.EndsJobs a k := dropped ▸ endsJobs_setLane rfl id id
  rw [jobs] at ended restore verify
  rw [Part.holdsCancelled, jobs, dropped]
  refine ⟨(((endsJobs_of_views lanes streams library).trans ended).trans drops).trans (withdraw_endsJobs a k), ?_, ?_, ?_⟩
  · exact (withdraw_endsJobs a k).restore (drops.restore restore)
  · exact (withdraw_endsJobs a k).verify (drops.verify verify)
  · rw [withdraw_lane, lane]

/-- What CANCEL LANE leaves: the streams faulted and the volume given up, the lane emptied with its read jobs over and at rest by
its bay unless in FAULT, and the other lane at rest. -/
structure Part.LaneCancelled (s t : Part) (k : LaneId) : Prop where
  streams : t.streams = (s.streamsCancelled k).streams
  library : t.library = ((s.streamsCancelled k).cancelVolume k).library
  lane : ∃ l : Lane, (t.lane k).withoutJobs = l.emptied.withoutJobs
  state : (t.lane k).state = if (s.lane k).state = .fault then .fault else t.restState k
  restore : (t.lane k).restore = none
  verify : (t.lane k).verify = none
  access : (t.lane k).access = Access.none
  other : (t.lane k.other).AtRest

theorem Part.LaneCancelled.touched {s t : Part} {k : LaneId} {x : Section} (h : s.LaneCancelled t k) :
    s.LaneCancelled (t.touch x) k :=
  ⟨h.streams, h.library, h.lane, h.state, h.restore, h.verify, h.access, h.other⟩

theorem state_of_withoutJobs {l m : Lane} (same : l.withoutJobs = m.withoutJobs) : l.state = m.state :=
  have states : l.withoutJobs.state = m.withoutJobs.state := congrArg Lane.state same
  states

theorem cancelWork_cancels {s : Part} {k : LaneId} (waiters : s.pool.waiters = []) (other : (s.lane k.other).AtRest)
    (notOpen : (s.lane k.other).run.isOpen = false) (chosen : (s.lane k.other).run.chosen = none) :
    s.LaneCancelled (s.cancelWork k) k := by
  obtain ⟨lanes, -, pool⟩ := streamsCancelled_views s k
  have lane := lane_of_lanes lanes
  have gave := cancelVolume_gives (s := s.streamsCancelled k) (k := k) (lane k.other ▸ chosen)
  have here : (s.laneEmptied k).lane k = (((s.streamsCancelled k).cancelVolume k).lane k).emptied := lane_setLane_same _ k _
  have beside : (s.laneEmptied k).lane k.other = s.lane k.other :=
    (lane_setLane_other _ k _).trans (gave.other.trans (lane k.other))
  have free : (s.laneEmptied k).pool.waiters = [] := (congrArg (·.waiters) (gave.pool.trans pool)).trans waiters
  obtain ⟨ended, restore, verify, access⟩ := holdsCancelled_ends k free
  rw [cancelWork_stages (beside ▸ notOpen)]
  obtain ⟨a, held⟩ : ∃ a, (s.laneEmptied k).holdsCancelled k = a := ⟨_, rfl⟩
  rw [held] at ended restore verify access ⊢
  have state : (a.lane k).state = (s.lane k).state :=
    calc (a.lane k).state = ((s.laneEmptied k).lane k).state := state_of_withoutJobs ended.lane
      _ = (((s.streamsCancelled k).cancelVolume k).lane k).state := by rw [here, Lane.emptied]
      _ = (s.lane k).state := gave.state.trans (congrArg Lane.state (lane k))
  have streams : a.streams = (s.streamsCancelled k).streams := ended.streams.trans gave.streams
  have rests : (a.lane k.other).AtRest := ended.other (beside ▸ other)
  have emptied : (a.lane k).withoutJobs = (((s.streamsCancelled k).cancelVolume k).lane k).emptied.withoutJobs :=
    ended.lane.trans (congrArg Lane.withoutJobs here)
  rw [state]
  by_cases fault : (s.lane k).state = .fault
  · rw [if_pos fault]
    exact ⟨streams, ended.library, ⟨_, emptied⟩, by rw [state, if_pos fault, fault], restore, verify, access, rests⟩
  · rw [if_neg fault]
    have rested : (a.setLane k { a.lane k with state := a.restState k }).lane k = { a.lane k with state := a.restState k } :=
      lane_setLane_same a k _
    have settled : s.LaneCancelled (a.setLane k { a.lane k with state := a.restState k }) k :=
      { streams := streams, library := ended.library
        lane := ⟨{ ((s.streamsCancelled k).cancelVolume k).lane k with state := a.restState k }, by
          rw [rested]
          exact congrArg (fun l : Lane => { l with state := a.restState k }) emptied⟩
        state := by rw [rested, if_neg fault]; rfl
        restore := by rw [rested]; exact restore
        verify := by rw [rested]; exact verify
        access := by rw [rested]; exact access
        other := by rw [lane_setLane_other]; exact rests }
    rcases rest_eq a k with same | same
    · rw [same]
      exact settled
    · rw [same]
      exact settled.touched

/-- A lane without read jobs that is at rest or in FAULT has nothing to settle. -/
theorem calm_of_no_jobs {l : Lane} (restore : l.restore = none) (verify : l.verify = none) (loan : l.access.loan ≠ .unloading)
    (state : l.resting = true ∨ l.state = .fault) : l.calm = true := by
  have jobs : l.jobsCalm = true := by simp [Lane.jobsCalm, restore, verify]
  have loans : (l.access.loan != .unloading) = true := bne_iff_ne.mpr loan
  have states : l.state = .empty ∨ l.state = .idle ∨ l.state = .fault := by
    rcases state with resting | fault
    · simpa [Lane.resting, or_assoc] using Or.inl resting
    · exact .inr (.inr fault)
  rcases states with e | e | e <;> simp [Lane.calm, jobs, loans, e]

theorem eq_or_eq_other (j k : LaneId) : j = k ∨ j = k.other := by
  cases j <;> cases k <;> decide

/-- A lane in FAULT, or one that shows its bay's record already, is not changed when lanes follow their bays (R86). -/
theorem follow_lane {s : Part} {k : LaneId} (h : (s.lane k).state = .fault ∨ (s.lane k).state = s.restState k) (j : LaneId) :
    (s.follow j).lane k = s.lane k := by
  rcases h with fault | shown
  · exact follow_working (by simp [Lane.resting, fault]) j
  · unfold Part.follow
    dsimp only
    split
    · rcases eq_or_eq_other j k with rfl | rfl
      · rw [← shown]
        exact lane_setLane_same s j _
      · exact lane_other_setLane s k _
    · rfl

theorem follow_views (s : Part) (j : LaneId) : (s.follow j).streams = s.streams ∧ (s.follow j).library = s.library := by
  unfold Part.follow
  dsimp only
  split <;> exact ⟨rfl, rfl⟩

/-- After CANCEL LANE nothing is left to settle but that the other lane follows its bay. -/
theorem settle_cancelled (old : Part) {s t : Part} (again : Bool) {k : LaneId} (h : s.LaneCancelled t k) :
    (settle old t again).lane k = t.lane k ∧ (settle old t again).streams = t.streams
      ∧ (settle old t again).library = t.library := by
  have shown : (t.lane k).state = .fault ∨ (t.lane k).state = t.restState k := by
    rw [h.state]
    split
    · exact .inl rfl
    · exact .inr rfl
  have calm : ∀ j, (t.lane j).calm = true := by
    refine both_lanes (k := k) ?_ ?_
    · refine calm_of_no_jobs h.restore h.verify (by rw [h.access]; decide) ?_
      rcases shown with fault | rests
      · exact .inr fault
      · refine .inl ?_
        rcases restState_resting t k with e | e <;> simp [Lane.resting, rests, e]
    · exact calm_of_no_jobs h.other.restore h.other.verify h.other.loan (.inl h.other.resting)
  obtain ⟨streams, library⟩ := follow_views t .l0
  obtain ⟨streams', library'⟩ := follow_views (t.follow .l0) .l1
  have first := follow_lane shown .l0
  have shown' : ((t.follow .l0).lane k).state = .fault ∨ ((t.follow .l0).lane k).state = (t.follow .l0).restState k := by
    rw [first, Part.restState, Part.loc, library]
    exact shown
  rw [settle_calm old again calm]
  exact ⟨(follow_lane shown' .l1).trans first, streams'.trans streams, library'.trans library⟩

/-- Nothing is left on an emptied lane, its read jobs aside. -/
theorem fields_of_emptied {l m : Lane} (same : l.withoutJobs = m.emptied.withoutJobs) :
    l.queue = [] ∧ l.sent = [] ∧ l.pending = none ∧ l.outstanding = none ∧ l.volume = none ∧ l.run = Run.none ∧ l.held = false
      ∧ l.serving = none ∧ l.ret = none := by
  simp only [Lane.withoutJobs, Lane.emptied, Lane.mk.injEq] at same
  simp only [same, and_self]

/-- What becomes of the chosen cartridge's record at CANCEL LANE (R122). -/
theorem cancelled_records {s : Part} {k : LaneId} {c : Chosen} {p : Loc} (other : (s.lane k.other).run.chosen = none)
    (chosen : (s.lane k).run.chosen = some c) (occupied : (s.loc p).occ = .occupied)
    (only : ∀ q, (s.loc q).label = some c.label ↔ q = p) :
    let t := s.cancelVolume k
    let written := (s.lane k).state = .append ∨ (s.lane k).state = .closing ∨ (s.lane k).state = .labelling
    (∀ q, q ≠ p → t.loc q = s.loc q)
    ∧ (written → t.loc p = { s.loc p with state := some .interrupted })
    ∧ (¬ written → (s.loc p).state = some .opened → t.loc p = if c.labelled then s.loc p else { s.loc p with state := some .scratch }) := by
  intro t written
  have writes : written ↔ (s.lane k).volumeOpen = true ∨ (s.lane k).state = .labelling := by
    simp only [written, Lane.volumeOpen, Bool.or_eq_true, beq_iff_eq, or_assoc]
  by_cases w : written
  · have after := loc_of_library (cancelVolume_written other chosen only (writes.mp w))
    exact ⟨fun q ne => (after q).trans (loc_setLoc_ne s p q _ ne.symm), fun _ => (after p).trans (loc_setLoc_same s p _),
      fun notWritten => absurd w notWritten⟩
  · have after := cancelVolume_unwritten chosen occupied only (mt writes.mpr w)
    by_cases scratch : (s.loc p).state = some .opened ∧ c.labelled = false
    · rw [if_pos scratch] at after
      refine ⟨fun q ne => (loc_of_library after q).trans (loc_setLoc_ne s p q _ ne.symm), fun written => absurd written w, fun _ _ => ?_⟩
      rw [scratch.2, if_neg Bool.false_ne_true]
      exact (loc_of_library after p).trans (loc_setLoc_same s p _)
    · rw [if_neg scratch] at after
      refine ⟨fun q _ => loc_of_library after q, fun written => absurd written w, fun _ opened => ?_⟩
      rw [if_pos (by simpa [opened] using scratch)]
      exact loc_of_library after p

/-- What CANCEL LANE leaves of the location records (R122). -/
theorem Part.LaneCancelled.records {s t : Part} {k : LaneId} {c : Chosen} {p : Loc} (h : s.LaneCancelled t k)
    (other : (s.lane k.other).run.chosen = none) (chosen : (s.lane k).run.chosen = some c) (occupied : (s.loc p).occ = .occupied)
    (only : ∀ q, (s.loc q).label = some c.label ↔ q = p) :
    let written := (s.lane k).state = .append ∨ (s.lane k).state = .closing ∨ (s.lane k).state = .labelling
    (∀ q, q ≠ p → t.loc q = s.loc q)
    ∧ (written → t.loc p = { s.loc p with state := some .interrupted })
    ∧ (¬ written → (s.loc p).state = some .opened → t.loc p = if c.labelled then s.loc p else { s.loc p with state := some .scratch }) := by
  obtain ⟨lanes, library, -⟩ := streamsCancelled_views s k
  have given := cancelled_records (s := s.streamsCancelled k) (k := k) (c := c) (p := p)
  simp only [lane_of_lanes lanes, loc_of_library library, ← loc_of_library h.library] at given
  exact given other chosen occupied only

/-- Settles O40: what `LaneCancelled` says of the part after `cancelWork`, which the lanes leave as it is (`settle_cancelled`). -/
theorem cancelLaneEmpties : Obligations.CancelLaneEmpties := by
  intro s k takes present waiters calm notOpen chosen resting restore verify
  have loan : (s.lane k.other).access.loan ≠ .unloading := by
    simp only [Lane.calm, Bool.and_eq_true, bne_iff_ne] at calm
    exact calm.1.1.2
  have other : (s.lane k.other).AtRest := ⟨restore, verify, loan, by rcases resting with e | e <;> simp [Lane.resting, e]⟩
  obtain ⟨x, worked⟩ : ∃ x, (s.judging 0x42).cancelWork k = x := ⟨_, rfl⟩
  have cancelled : (s.judging 0x42).LaneCancelled x k := worked ▸ cancelWork_cancels waiters other notOpen chosen
  have judged : (s.judging 0x42).cancelLane (BitVec.ofNat 8 k.num) = (x.touch (.lane k)).accepted 0 := by
    rw [Part.cancelLane, laneArg_ofNat (s.judging 0x42) k present, ← worked]
  have still : (x.touch (.lane k)).still = (s.judging 0x42).still := by rw [touch_still, ← worked, cancelWork_still]
  obtain ⟨t, again, next, pending, frame, lanes, streams, library⟩ := directive_settles
    (c := .cancelLane (BitVec.ofNat 8 k.num)) rfl takes judged still
  obtain ⟨lane, streams', library'⟩ := settle_cancelled s.toPart again cancelled.touched
  have here : t.lane k = x.lane k := (lane_of_lanes lanes k).trans lane
  have locs : ∀ q, t.loc q = x.loc q := loc_of_library (library.trans library')
  obtain ⟨l, emptied⟩ := cancelled.lane
  obtain ⟨queue, sent, pending', outstanding, volume, run, held, serving, ret⟩ := fields_of_emptied emptied
  refine ⟨t, next, pending, frame, ?_⟩
  rw [here, run]
  refine ⟨queue, sent, pending', outstanding, volume, rfl, rfl, held, cancelled.restore, cancelled.verify, serving, ret,
    fun notFault => ?_, fun fault => cancelled.state.trans (if_pos fault), fun i bound notClosed notFaulted => ?_,
    fun c p own occupied only => ?_⟩
  · rw [locs]
    exact cancelled.state.trans (if_neg notFault)
  · rw [stream_of_streams (streams.trans (streams'.trans cancelled.streams))]
    exact streamsCancelled_stream (s := s.judging 0x42) bound notClosed notFaulted
  · simp only [locs]
    exact cancelled.records chosen own occupied only

end Sys2Proof.Machine
end

section
/-! SUPPORT. A completed echo: the lane's part of LABEL, DATA and EOV verified, of a rewrite and of an abandoned volume
(R67, R99 to R102, R115, R116, R119, R121). Settles O21. -/

namespace Sys2Proof.Machine

/-! ## A return completed (R94) -/

theorem addAll_append (f : Fold) (xs ys : List Byte) : f.addAll (xs ++ ys) = (f.addAll xs).addAll ys := List.foldl_append

/-- Bytes added to a return of at least 32 bytes whose folds are those of its bytes (R94). -/
theorem add_folds {r : Return} (bytes : List Byte) (long : 32 ≤ r.bytes.length)
    (header : r.headerFold = Fold.start.addAll (r.bytes.take 32)) (payload : r.payloadFold = Fold.start.addAll (slice r.bytes 32 32720)) :
    (r.add bytes).headerFold.value = foldCheck ((r.bytes ++ bytes).take 32)
      ∧ (r.add bytes).payloadFold.value = foldCheck (slice (r.bytes ++ bytes) 32 32720) := by
  have none : 32 - r.bytes.length = 0 := by omega
  have room : 32752 - max r.bytes.length 32 = 32720 - (r.bytes.drop 32).length := by rw [List.length_drop]; omega
  have heads : (r.add bytes).headerFold = r.headerFold := by simp [Return.add, none, Fold.addAll]
  have loads : (r.add bytes).payloadFold = r.payloadFold.addAll (bytes.take (32720 - (r.bytes.drop 32).length)) := by
    simp [Return.add, none, room]
  refine ⟨by rw [heads, header, foldCheck, List.take_append_of_le_length long], ?_⟩
  rw [loads, payload, ← addAll_append, foldCheck, slice, slice, List.drop_append_of_le_length long, List.take_append]

theorem returnKind_block {h : List Byte} (marker : h.take 4 = markerBlock) : returnKind h = some .block := by
  rw [returnKind, if_pos marker]

/-- With no SEEK outstanding a block return is an echo (R99). -/
theorem returnDone_block {s : Part} {k : LaneId} (r : Return) (idle : (s.lane k).seeking = false) :
    s.returnDone k r .block = s.judgeEcho k r := by
  simp only [Part.returnDone, idle, Bool.false_eq_true, if_false]

/-- The part with the return write `t` answered OKAY and the lane's return over (R94). -/
abbrev Part.returned (s : Part) (k : LaneId) (t : Txn) : Part :=
  (s.acceptedAs t (.ready ⟨t.tag, true, none, []⟩) none).setLane k { s.lane k with ret := none }

/-- The write that completes a block return on a lane with nothing outstanding is answered OKAY, and the block is judged as an
echo (R94, R99). -/
theorem echo_completes {s : Part} {t : Txn} {k : LaneId} {block : List Byte} (h : s.completesReturn t k block)
    (idle : (s.lane k).outstanding = none) :
    ∃ r : Return, r.bytes = block ∧ r.headerFold.value = foldCheck (block.take 32)
      ∧ r.payloadFold.value = foldCheck (slice block 32 32720)
      ∧ s.clientTransaction t = (s.returned k t).judgeEcho k r := by
  obtain ⟨-, alone, length, marker, r, ret, long, kind, rfl, -, header, payload⟩ := h
  obtain ⟨headers, payloads⟩ := add_folds (enabledBytes t) long header payload
  refine ⟨r.add (enabledBytes t), rfl, headers, payloads, ?_⟩
  have later : r.bytes.length ≠ 0 := by omega
  have bytes : (r.add (enabledBytes t)).bytes = r.bytes ++ enabledBytes t := rfl
  have isBlock : returnKind ((r.bytes ++ enabledBytes t).take 32) = some .block := returnKind_block (by rwa [List.take_take])
  have write : s.clientTransaction t = (s.accept t).2.returnWrite k s.bus.nextId r.bytes.length (enabledBytes t) := by
    unfold Part.clientTransaction
    rw [kind]
    rfl
  have lane : (s.accept t).2.lane k = s.lane k := rfl
  have answered := accept_okay s t (fresh_of_alone s alone) []
  rw [write]
  simp only [Part.returnWrite, if_neg later, lane, ret, if_true, bytes, length, isBlock, long, decide_true, Bool.true_or,
    ReturnKind.size, Config.blockBytes, Nat.lt_irrefl, if_false, answered]
  refine returnDone_block _ ?_
  rw [Part.modLane, lane_setLane_same]
  simp only [Lane.seeking]
  rw [show (s.acceptedAs t _ none).lane k = s.lane k from rfl, idle]

/-! ## An event's effect up to a transaction answered -/

theorem leaves_of_accepted {c : Instr} {s : State} {x : Part} {t : Txn} {a : Answer}
    (h : Leaves c s (x.acceptedAs t (.ready a) none)) : Leaves c s x := by
  obtain ⟨u, next, pending, frame, rest⟩ := h
  exact ⟨u, next, pending, frame, fun quiet => ⟨(rest quiet).1, (rest quiet).2.1,
    fun calm => (rest quiet).2.2 (noConditionRead_acceptedAs x t _ none nofun calm)⟩⟩

/-- Marking a cartridge commutes with what leaves the location records. -/
theorem setCartridge_comm {g : Part → Part} (loc : ∀ p q, (g p).loc q = p.loc q)
    (set : ∀ p q r, (g p).setLoc q r = g (p.setLoc q r)) (p : Part) (label : Label) (c : CartState) :
    (g p).setCartridge label c = g (p.setCartridge label c) := by
  simp only [Part.setCartridge, loc, set]
  split <;> rfl

theorem setVerified_comm {g : Part → Part} (loc : ∀ p q, (g p).loc q = p.loc q)
    (set : ∀ p q r, (g p).setLoc q r = g (p.setLoc q r)) (p : Part) (label : Label) (v : Bool) :
    (g p).setVerified label v = g (p.setVerified label v) := by
  simp only [Part.setVerified, loc, set]
  split <;> rfl

/-- The blocks of a Sent List QUEUED again (R101). -/
def Part.requeued (s : Part) (k : LaneId) (sent : List SentEntry) : Part :=
  sent.foldl (fun s y => match y.kind with
    | .data b => s.setCopy k b .queued
    | _ => s) s

/-- Queueing blocks again commutes with what leaves the pool. -/
theorem requeued_comm {g : Part → Part} {k : LaneId} (set : ∀ p b, (g p).setCopy k b .queued = g (p.setCopy k b .queued))
    (p : Part) (sent : List SentEntry) : (g p).requeued k sent = g (p.requeued k sent) := by
  refine (List.foldl_hom g fun q y => ?_)
  split
  · exact set q _
  · rfl

/-- The Sent List's blocks as they go back to the send queue, their rewrite counts raised (R101). -/
def backOf (sent : List SentEntry) (raise : Nat) : List QueueEntry := sent.filterMap fun y => y.back (y.rewrites + raise)

theorem putBack_eq (p : Part) (k : LaneId) (l : Lane) (raise : Nat) :
    (p.setLane k l).putBack k raise
      = (p.requeued k l.sent).setLane k { l with queue := backOf l.sent raise ++ l.queue, sent := [] } := by
  have fold : (backOf l.sent raise).foldl (fun s y => s.setCopy k y.buf .queued) (p.setLane k l) = (p.setLane k l).requeued k l.sent := by
    rw [backOf, List.foldl_filterMap, Part.requeued]
    congr 1
    funext s y
    rw [SentEntry.back]
    cases y.kind <;> rfl
  have apart : (p.setLane k l).requeued k l.sent = (p.requeued k l.sent).setLane k l :=
    requeued_comm (g := fun p => p.setLane k l) (fun _ _ => rfl) p l.sent
  rw [Part.putBack, lane_setLane_same]
  change Part.modLane ((backOf l.sent raise).foldl (fun s y => s.setCopy k y.buf .queued) (p.setLane k l)) k _ = _
  rw [fold, apart, modLane_setLane]
  rfl

/-! ## The echo of the oldest entry (R99, R100) -/

theorem judgeEcho_stale {p : Part} {k : LaneId} {l : Lane} {r : Return} (stale : (field r.bytes 16 4, field r.bytes 6 1) ∈ l.stale) :
    (p.setLane k l).judgeEcho k r
      = p.setLane k { l with stale := l.stale.erase (field r.bytes 16 4, field r.bytes 6 1) } := by
  have found := List.contains_iff_mem.mpr stale
  simp only [Part.judgeEcho, lane_setLane_same, found, if_true, modLane_setLane]

theorem judgeEcho_oldest {p : Part} {k : LaneId} {l : Lane} {r : Return} {e : SentEntry} {rest : List SentEntry}
    (fresh : (field r.bytes 16 4, field r.bytes 6 1) ∉ l.stale) (sent : l.sent = e :: rest) :
    (p.setLane k l).judgeEcho k r
      = if e.matchesEcho r then (p.setLane k l).echoMatched k e else (p.setLane k l).echoFailed k := by
  have absent : l.stale.contains (field r.bytes 16 4, field r.bytes 6 1) = false := by
    rwa [← Bool.not_eq_true, List.contains_iff_mem]
  simp only [Part.judgeEcho, lane_setLane_same, absent, Bool.false_eq_true, if_false, sent]

theorem matchesEcho_iff (e : SentEntry) (r : Return) :
    e.matchesEcho r = true ↔ (field r.bytes 16 4, field r.bytes 6 1) = (e.seq, e.rewrites) ∧ r.headerFold.value = e.headerCheck
      ∧ r.payloadFold.value = e.payloadCheck ∧ slice r.bytes 32752 16 = trailerBytes e.payloadCheck e.headerCheck := by
  simp only [SentEntry.matchesEcho, Bool.and_eq_true, beq_iff_eq, Prod.mk.injEq, and_assoc]

/-- The lane with its oldest entry verified (R100). -/
def Lane.verifiedOldest (l : Lane) (e : SentEntry) (rest : List SentEntry) (v : Volume) : Lane :=
  { l with sent := rest, volume := some { v with verified := e.seq }, stale := [] }

theorem echoMatched_eq {p : Part} {k : LaneId} {l : Lane} {e : SentEntry} {rest : List SentEntry} {v : Volume}
    (sent : l.sent = e :: rest) (volume : l.volume = some v) :
    (p.setLane k l).echoMatched k e = match e.kind with
      | .data b => ((p.setLane k (l.verifiedOldest e rest v)).dataVerified k e.seq (p.buffer b).summary).copyDone k b
      | .label => (p.setLane k (l.verifiedOldest e rest v)).labelVerified k
      | .eov => (p.setLane k (l.verifiedOldest e rest v)).volumeEnd k := by
  have lane : (p.setLane k l).modLane k (fun l => { l with
      sent := l.sent.drop 1, volume := l.volume.map (fun v => { v with verified := e.seq }), stale := [] })
      = p.setLane k (l.verifiedOldest e rest v) := by
    rw [modLane_setLane, sent, volume]
    rfl
  rw [Part.echoMatched, lane]
  cases e.kind <;> rfl

/-! ## LABEL verified (R115) -/

/-- The part with the span entry made when the volume's LABEL is verified, in place of one of that label (R115). -/
def Part.entered (s : Part) (v : Volume) : Part :=
  { s with span := s.span.filter (fun y => y.label ≠ v.label) ++
      [⟨v.label, v.set, v.number, v.twin, .opened, .none, 0, 0, false, v.rewrites, 0, []⟩] }

/-- The lane in APPEND on the volume whose LABEL is verified, the next number to the volume after it (R115). -/
def Lane.appending (l : Lane) : Lane :=
  { l with state := .append, run := { l.run with nextVolume := l.run.nextVolume + 1 } }

theorem labelVerified_opens {p : Part} {k : LaneId} {l : Lane} {v : Volume} (volume : l.volume = some v)
    (room : p.span.length < 32 ∨ p.findSpan v.label ≠ none) (goesOn : l.run.stopAfter = false) :
    (p.setLane k l).labelVerified k
      = if 2 ≤ v.number then (((p.entered v).setVerified v.label false).setLane k l.appending).latch .volumeChanged
        else ((p.entered v).setVerified v.label false).setLane k l.appending := by
  have known : ¬ (32 ≤ (p.setLane k l).span.length ∧ ((p.setLane k l).findSpan v.label).isNone = true) := by
    rintro ⟨full, absent⟩
    exact room.elim (fun few => Nat.not_lt.mpr full few) fun known => known (Option.isNone_iff_eq_none.mp absent)
  have here : ((p.setLane k l).lane k).volume = some v := (congrArg Lane.volume (lane_setLane_same p k l)).trans volume
  have verified : ((p.setLane k l).entered v).setVerified v.label false = ((p.entered v).setVerified v.label false).setLane k l :=
    setVerified_comm (g := fun p => p.setLane k l) (fun _ _ => rfl) (fun _ _ _ => rfl) (p.entered v) v.label false
  have opens : ∀ s : Part, (s.setLane k l).modLane k (fun l =>
      let run := { l.run with nextVolume := l.run.nextVolume + 1 }
      if run.stopAfter then { l with state := .closing, run := { run with due := l.queue.length } }
      else { l with state := .append, run := run }) = s.setLane k l.appending := by
    intro s
    rw [modLane_setLane]
    simp only [goesOn, Bool.false_eq_true, if_false]
    rw [← goesOn]
    rfl
  rw [Part.labelVerified, here]
  dsimp only
  rw [if_neg known]
  change Part.modLane (if 2 ≤ v.number then (((p.setLane k l).entered v).setVerified v.label false).latch .volumeChanged
    else ((p.setLane k l).entered v).setVerified v.label false) k _ = _
  rw [verified]
  split
  · exact opens ((Part.setVerified (p.entered v) v.label false).latch .volumeChanged)
  · exact opens _

/-! ## DATA verified (R67, R116) -/

/-- The span entry of a volume with a block verified: positions, sequence and the block's segments (R116). -/
def SpanEntry.extended (y : SpanEntry) (v : Volume) (seq : Nat) (summary : List Summary) : SpanEntry :=
  { y with positions := v.positions, verified := seq, ranges := summary.foldl (fun rs n => extendRange seq n rs) y.ranges }

theorem dataVerified_eq {p : Part} {k : LaneId} {l : Lane} {e : SentEntry} {rest : List SentEntry} {v : Volume} (summary : List Summary) :
    (p.setLane k (l.verifiedOldest e rest v)).dataVerified k e.seq summary
      = (p.modSpan v.label (fun y => y.extended v e.seq summary)).setLane k (l.verifiedOldest e rest v) := by
  have volume : ((p.setLane k (l.verifiedOldest e rest v)).lane k).volume = some { v with verified := e.seq } := by
    rw [lane_setLane_same, Lane.verifiedOldest]
  rw [Part.dataVerified, Part.mirror, volume]
  rfl

/-- A buffer is settled when a copy is DONE and the other lane's is DONE or not owed (R67). -/
theorem settled_done (x : Buffer) (k : LaneId) :
    ({ x with copies := x.copies.set k (some .done) } : Buffer).settled = true
      ↔ x.copies.get k.other = none ∨ x.copies.get k.other = some .done := by
  cases k <;> simp [Buffer.settled, Pair.set, Pair.get, LaneId.other]

/-- The part with buffer `b` FREE at the tail of the free list (R67). -/
def Part.freed (p : Part) (b : Nat) : Part :=
  { p.setBuffer b Buffer.blank with pool := { (p.setBuffer b Buffer.blank).pool with free := p.pool.free ++ [b] } }

theorem copyDone_eq {p : Part} {k : LaneId} {b : Nat} (inPool : b < p.pool.buffers.length) (waiters : p.pool.waiters = []) :
    ((p.buffer b).copies.get k.other = none ∨ (p.buffer b).copies.get k.other = some .done →
      p.copyDone k b = (p.freed b).touch .pool)
    ∧ ((p.buffer b).copies.get k.other = some .queued ∨ (p.buffer b).copies.get k.other = some .sent →
      p.copyDone k b = p.setCopy k b .done) := by
  have copied : (p.setCopy k b .done).buffer b = { p.buffer b with copies := (p.buffer b).copies.set k (some .done) } :=
    buffer_setBuffer_same p b _ inPool
  have settled := settled_done (p.buffer b) k
  rw [← copied] at settled
  refine ⟨fun unowed => ?_, fun owed => ?_⟩
  · have blank : (p.setCopy k b .done).blankAll [b] = p.setBuffer b Buffer.blank := setBuffer_setBuffer p b _ _
    have released := release_of_no_waiters (s := p.setCopy k b .done) [b] waiters
    rw [blank] at released
    exact (if_pos (settled.mpr unowed)).trans released
  · refine if_neg ?_
    rw [settled]
    rcases owed with e | e <;> simp [e]

/-! ## A volume left behind (R119, R121) -/

theorem mirror_eq {p : Part} {k : LaneId} {l : Lane} {v : Volume} (volume : l.volume = some v) (f : SpanEntry → SpanEntry) :
    (p.setLane k l).mirror k f
      = (p.modSpan v.label (fun y => f { y with positions := v.positions, verified := v.verified })).setLane k l := by
  rw [Part.mirror, lane_setLane_same, volume]
  rfl

theorem markChosen_eq {p : Part} {k : LaneId} {l : Lane} {h : Chosen} (chosen : l.run.chosen = some h) (c : CartState) :
    (p.setLane k l).markChosen k c = (p.setCartridge h.label c).setLane k l := by
  rw [Part.markChosen, lane_setLane_same, chosen]
  exact setCartridge_comm (g := fun p => p.setLane k l) (fun _ _ => rfl) (fun _ _ _ => rfl) p h.label c

/-- The lane with its volume left, its queue carried to the next one and an UNLOAD pending (R119, R121). -/
def Lane.unloads (l : Lane) : Lane :=
  { l.leftVolume with
    state := .unloading, pending := some .unload
    queue := l.queue.map (fun y => { y with seq := none, rewrites := 0, carried := true }) }

theorem leave_unloads {p : Part} {k : LaneId} (l : Lane) (other : (p.lane k.other).run.chosen = none) :
    (((p.setLane k l).leaveVolume k).carry k).startUnload k = p.setLane k l.unloads := by
  have apart : ((p.setLane k l).lane k.other).run.chosen = none := by rwa [lane_setLane_other]
  rw [leaveVolume_eq apart, lane_setLane_same, setLane_setLane, Part.carry, modLane_setLane, Part.startUnload, modLane_setLane]
  rfl

theorem setCartridge_lane (p : Part) (label : Label) (c : CartState) (k : LaneId) : (p.setCartridge label c).lane k = p.lane k := by
  unfold Part.setCartridge
  split <;> rfl

/-- The span entry of a volume that ends FULL: continuations and where the streams stand (R119). -/
def SpanEntry.ended (y : SpanEntry) (v : Volume) (r : Run) : SpanEntry :=
  { y with
    positions := v.positions, verified := v.verified, absentFrom := r.absentFrom, eovVerified := true, mirror := .full
    ranges := y.ranges.map (fun x => match r.eovList.find? (fun z => z.1 == x.stream) with
      | some z => { x with continuation := some z.2 }
      | none => x) }

theorem volumeEnd_eq {p : Part} {k : LaneId} {l : Lane} {v : Volume} {h : Chosen} (volume : l.volume = some v)
    (chosen : l.run.chosen = some h) (other : (p.lane k.other).run.chosen = none) :
    (p.setLane k l).volumeEnd k
      = (((p.modSpan v.label (fun y => y.ended v l.run)).setCartridge h.label .full).setLane k l.unloads).latch .eovDone := by
  have leaves : ∀ q : Part, (q.lane k.other).run.chosen = none →
      (((((q.setLane k l).markChosen k .full).latch .eovDone).leaveVolume k).carry k).startUnload k
        = ((q.setCartridge h.label .full).setLane k l.unloads).latch .eovDone := by
    intro q apart
    rw [markChosen_eq chosen]
    exact leave_unloads (p := (q.setCartridge h.label .full).latch .eovDone) l
      ((congrArg (·.run.chosen) (setCartridge_lane q h.label .full k.other)).trans apart)
  rw [Part.volumeEnd, lane_setLane_same, mirror_eq volume, leaves]
  case a => exact other
  refine congrArg (fun f => (((p.modSpan v.label f).setCartridge h.label .full).setLane k l.unloads).latch .eovDone)
    (funext fun y => ?_)
  refine congrArg (fun rs : List StreamRange => ({ y with
    positions := v.positions, verified := v.verified, absentFrom := l.run.absentFrom, eovVerified := true, mirror := .full
    ranges := rs } : SpanEntry)) (List.map_congr_left fun x _ => ?_)
  cases l.run.eovList.find? (fun z => z.1 == x.stream) <;> rfl

/-! ## An echo failed (R101, R121) -/

theorem releaseServed_of_none {p : Part} {k : LaneId} {l : Lane} (serving : l.serving = none) :
    (p.setLane k l).releaseServed k = p.setLane k l := by
  have idle : l.committed = false := by rw [Lane.committed, serving]
  simp only [Part.releaseServed, modLane_setLane, idle, Bool.false_eq_true, if_false]

theorem dropPending_of_none {p : Part} {k : LaneId} {l : Lane} (serving : l.serving = none) :
    (p.setLane k l).dropPending k = p.setLane k { l with pending := none } := by
  rw [Part.dropPending, lane_setLane_same, serving]
  simp only [modLane_setLane, Bool.false_eq_true, if_false, serving]

theorem requeued_lane (p : Part) (k j : LaneId) (sent : List SentEntry) : (p.requeued k sent).lane j = p.lane j := by
  refine foldl_view (fun q => q.lane j) (fun s y => match y.kind with
    | .data b => s.setCopy k b .queued
    | _ => s) (fun s y => ?_) sent p
  split <;> rfl

/-- At a rewrite limit the volume is abandoned: its cartridge and its span entry SUSPECT, its blocks put back, an UNLOAD pending
(R121). -/
theorem abandon_eq {p : Part} {k : LaneId} {l : Lane} {v : Volume} {h : Chosen} (volume : l.volume = some v)
    (chosen : l.run.chosen = some h) (append : l.state = .append) (serving : l.serving = none)
    (other : (p.lane k.other).run.chosen = none) :
    (p.setLane k l).abandon k (some .rewriteLimit)
      = (((p.requeued k l.sent).setCartridge h.label .suspect).modSpan v.label (fun y => { y with
          positions := v.positions, verified := v.verified, mirror := .suspect, cause := .rewriteLimit })).setLane k
        ({ l with sent := [], queue := backOf l.sent 0 ++ l.queue, owedEov := none } : Lane).unloads := by
  obtain ⟨m, left⟩ : ∃ m : Lane, { l with pending := none, owedEov := none, queue := backOf l.sent 0 ++ l.queue, sent := [] } = m :=
    ⟨_, rfl⟩
  have back : (((p.setLane k l).releaseServed k).dropPending k).modLane k (fun l => { l with owedEov := none })
      = p.setLane k { l with pending := none, owedEov := none } := by
    rw [releaseServed_of_none serving, dropPending_of_none serving, modLane_setLane]
  have opened : m.volumeOpen = true := by rw [← left, Lane.volumeOpen, append]; rfl
  have volume' : m.volume = some v := by rw [← left, volume]
  have chosen' : m.run.chosen = some h := by rw [← left, chosen]
  have beside : (((p.requeued k l.sent).setCartridge h.label .suspect).lane k.other).run.chosen = none := by
    rw [setCartridge_lane, requeued_lane, other]
  rw [Part.abandon, back, putBack_eq]
  change (((if ((((p.requeued k l.sent).setLane k _)).lane k).volumeOpen then _ else _ : Part).leaveVolume k).carry k).startUnload k = _
  rw [left, lane_setLane_same, if_pos opened, markChosen_eq chosen', mirror_eq volume', leave_unloads]
  case other => exact beside
  rw [← left]
  rfl

/-- Whether the Sent List has reached a rewrite limit (R101, R121). -/
def atRewriteLimit (sent : List SentEntry) (v : Volume) : Prop := (∃ y ∈ sent, 3 ≤ y.rewrites + 1) ∨ 8 ≤ v.rewrites.length

theorem atRewriteLimit_iff (sent : List SentEntry) (v : Volume) :
    (sent.any (fun y => 3 ≤ y.rewrites + 1) || 8 ≤ v.rewrites.length) = true ↔ atRewriteLimit sent v := by
  simp [atRewriteLimit]

theorem echoFailed_limit {p : Part} {k : LaneId} {l : Lane} {v : Volume} (volume : l.volume = some v)
    (limit : atRewriteLimit l.sent v) :
    (p.setLane k l).echoFailed k = ((p.latch .echoRetry).setLane k l).abandon k (some .rewriteLimit) := by
  rw [Part.echoFailed, lane_setLane_same, volume]
  exact if_pos ((atRewriteLimit_iff l.sent v).mpr limit)

/-- The run of blocks written again: from the oldest entry's sequence to the newest's (R101). -/
def rewriteRun (e : SentEntry) (rest : List SentEntry) : Nat × Nat := (e.seq, ((e :: rest).getLast?.map (·.seq)).getD 0)

/-- The lane with its Sent List of blocks put back to be written again (R101). -/
def Lane.resending (l : Lane) (e : SentEntry) (rest : List SentEntry) (v : Volume) : Lane :=
  { l with
    sent := [], queue := backOf l.sent 1 ++ l.queue, stale := rest.map (fun y => (y.seq, y.rewrites))
    volume := some { v with rewrites := v.rewrites ++ [rewriteRun e rest] } }

/-- Below the rewrite limits a Sent List of blocks goes back to the send queue, and the span entry keeps the run (R101). -/
theorem echoFailed_resends {p : Part} {k : LaneId} {l : Lane} {v : Volume} {e : SentEntry} {rest : List SentEntry}
    (volume : l.volume = some v) (sent : l.sent = e :: rest) (below : ¬ atRewriteLimit l.sent v)
    (blocks : ∀ y ∈ l.sent, ∃ b, y.kind = .data b) (append : l.state = .append) (serving : l.serving = none)
    (pending : l.pending = none) :
    (p.setLane k l).echoFailed k
      = (((p.requeued k l.sent).modSpan v.label (fun y => { y with runs := y.runs ++ [rewriteRun e rest] })).setLane k
          (l.resending e rest v)).latch .echoRetry := by
  have orders : ∀ f : SentEntry → Option SentEntry, (∀ y b, y.kind = .data b → f y = none) → l.sent.filterMap f = [] :=
    fun f none => List.filterMap_eq_nil_iff.mpr fun y m => (blocks y m).elim fun b data => none y b data
  have opened : l.volumeOpen = true := by rw [Lane.volumeOpen, append]; rfl
  rw [Part.echoFailed, lane_setLane_same, volume]
  refine (if_neg ((atRewriteLimit_iff l.sent v).not.mpr below)).trans ?_
  have notClosing : ¬ l.state = .closing := by rw [append]; decide
  have runs : ((l.sent.head?.map (·.seq)).getD 0, (l.sent.getLast?.map (·.seq)).getD 0) = rewriteRun e rest := by rw [sent]; rfl
  have stale : (l.sent.drop 1).map (fun y => (y.seq, y.rewrites)) = rest.map (fun y => (y.seq, y.rewrites)) := by rw [sent]; rfl
  have spans : ∀ f, ((p.setLane k l).latch .echoRetry).modSpan v.label f = ((p.modSpan v.label f).latch .echoRetry).setLane k l :=
    fun _ => rfl
  dsimp only
  rw [if_pos opened, runs, spans]
  simp only [modLane_setLane, lane_setLane_same, serving, pending, volume, stale, putBack_eq, Option.map_some]
  rw [orders, if_neg notClosing]
  case a => exact fun y b data => by rw [data]
  have apart : ∀ f, ((p.modSpan v.label f).latch .echoRetry).requeued k l.sent
      = ((p.requeued k l.sent).modSpan v.label f).latch .echoRetry := fun f =>
    requeued_comm (g := fun q => (q.modSpan v.label f).latch .echoRetry) (fun _ _ => rfl) p l.sent
  simp only [apart, Lane.resending, serving, pending]
  rfl

/-! ## A completed echo as an event -/

/-- The part with the transaction `t`, a write, answered OKAY (R26). -/
def Part.okayed (s : Part) (t : Txn) : Part := s.acceptedAs t (.ready ⟨t.tag, true, none, []⟩) none

theorem setCartridge_okayed (s : Part) (t : Txn) (label : Label) (c : CartState) :
    (s.okayed t).setCartridge label c = (s.setCartridge label c).okayed t :=
  setCartridge_comm (g := fun p => p.okayed t) (fun _ _ => rfl) (fun _ _ _ => rfl) s label c

theorem setVerified_okayed (s : Part) (t : Txn) (label : Label) (v : Bool) :
    (s.okayed t).setVerified label v = (s.setVerified label v).okayed t :=
  setVerified_comm (g := fun p => p.okayed t) (fun _ _ => rfl) (fun _ _ _ => rfl) s label v

theorem requeued_okayed (s : Part) (t : Txn) (k : LaneId) (sent : List SentEntry) :
    (s.okayed t).requeued k sent = (s.requeued k sent).okayed t :=
  requeued_comm (g := fun p => p.okayed t) (fun _ _ => rfl) s sent

/-- Whether a transaction is a return write (R94). -/
def returns (x : Treatment) : Bool := match x with
  | .ret .. => true
  | _ => false

/-- A return write is an event of its transaction (R94). -/
theorem returnWrite_leaves {s : State} {t : Txn} {k : LaneId} {off : Nat} (high : s.pins.resetLow = false)
    (kind : s.classify t = .ret k off) : Leaves (.returnWrite t) s (s.clientTransaction t) := by
  obtain ⟨f, named⟩ : ∃ f : Part → Part, f = fun p => if returns (p.classify t) then p.clientTransaction t else p := ⟨_, rfl⟩
  have event := laneEvent_leaves (.returnWrite t) s f (by rw [named]; rfl) high
  have taken : f s.toPart = s.clientTransaction t := by
    rw [named]
    dsimp only
    rw [kind]
    exact if_pos rfl
  rwa [taken] at event

/-- The event of a completed echo leaves what judging it leaves. -/
theorem echo_leaves {s : State} {t : Txn} {k : LaneId} {block : List Byte} (completes : s.completesReturn t k block)
    (idle : (s.lane k).outstanding = none) :
    ∃ r : Return, r.bytes = block ∧ r.headerFold.value = foldCheck (block.take 32)
      ∧ r.payloadFold.value = foldCheck (slice block 32 32720)
      ∧ ∀ x : Part, ((s.okayed t).setLane k { s.lane k with ret := none }).judgeEcho k r = x.okayed t →
        Leaves (.returnWrite t) s x := by
  obtain ⟨r, bytes, header, payload, judged⟩ := echo_completes completes idle
  obtain ⟨high, -, -, -, _, -, -, kind, -⟩ := completes
  have event := returnWrite_leaves high kind
  rw [judged] at event
  refine ⟨r, bytes, header, payload, fun x same => ?_⟩
  change Leaves _ s (((s.okayed t).setLane k { s.lane k with ret := none }).judgeEcho k r) at event
  rw [same] at event
  exact leaves_of_accepted event

/-- Settles O21, by the echo's case: `judgeEcho_stale`; `labelVerified_opens`, `copyDone_eq` and `volumeEnd_eq` for what is
verified; `echoFailed_resends` and `abandon_eq` for what failed. -/
theorem echoesJudged : Obligations.EchoesJudged := by
  intro s t k block e rest v completes idle sent volume c l pair fits verified carry left back queued limit
  obtain ⟨r, rfl, header, payload, leaves⟩ := echo_leaves completes idle
  have matched : fits ↔ e.matchesEcho r = true := by
    rw [matchesEcho_iff, header, payload]
    rfl
  have oldest : pair ∉ l.stale → ((s.okayed t).setLane k l).judgeEcho k r
      = if e.matchesEcho r then ((s.okayed t).setLane k l).echoMatched k e else ((s.okayed t).setLane k l).echoFailed k :=
    fun fresh => judgeEcho_oldest fresh sent
  have verifies : pair ∉ l.stale → fits → ((s.okayed t).setLane k l).judgeEcho k r = _ := fun fresh fit =>
    ((oldest fresh).trans (if_pos (matched.mp fit))).trans (echoMatched_eq (l := l) sent volume)
  have fails : pair ∉ l.stale → ¬ fits → ((s.okayed t).setLane k l).judgeEcho k r = ((s.okayed t).setLane k l).echoFailed k :=
    fun fresh unfit => (oldest fresh).trans (if_neg (matched.not.mp unfit))
  refine ⟨fun stale => leaves _ (judgeEcho_stale stale), fun fresh fit label room goesOn => ?_, fun b fresh fit data inPool waiters => ?_,
    fun h fresh fit eov chosen other => ?_, fun fresh unfit below blocks append serving pending => ?_,
    fun h fresh unfit limit append serving chosen other => ?_⟩
  · have judged := verifies fresh fit
    rw [label] at judged
    have entered := setVerified_okayed (s.entered v) t v.label false
    refine leaves _ ((judged.trans (labelVerified_opens rfl room goesOn)).trans ?_)
    change (if 2 ≤ v.number then ((((s.entered v).okayed t).setVerified v.label false).setLane k _).latch .volumeChanged
      else (((s.entered v).okayed t).setVerified v.label false).setLane k _) = _
    rw [entered]
    dsimp only
    split <;> rfl
  · have judged := verifies fresh fit
    rw [data] at judged
    dsimp only at judged
    rw [dataVerified_eq] at judged
    obtain ⟨frees, marks⟩ := copyDone_eq (p := ((s.okayed t).modSpan v.label
      (fun y => y.extended v e.seq ((s.okayed t).buffer b).summary)).setLane k (l.verifiedOldest e rest v)) (k := k) inPool waiters
    exact ⟨fun unowed => leaves_of_touched .pool (leaves _ (judged.trans (frees unowed))),
      fun owed => leaves _ (judged.trans (marks owed))⟩
  · have judged := verifies fresh fit
    rw [eov] at judged
    have ended := judged.trans (volumeEnd_eq (v := { v with verified := e.seq }) rfl chosen other)
    have marked := setCartridge_okayed (s.modSpan v.label fun y => y.ended { v with verified := e.seq } l.run) t h.label .full
    exact leaves _ (ended.trans (congrArg (fun q : Part => (q.setLane k (l.verifiedOldest e rest v).unloads).latch .eovDone) marked))
  · have resends := (fails fresh unfit).trans (echoFailed_resends (l := l) volume sent below blocks append serving pending)
    rw [requeued_okayed] at resends
    exact leaves _ resends
  · have abandons := ((fails fresh unfit).trans (echoFailed_limit (l := l) volume limit)).trans
      (abandon_eq (p := (s.okayed t).latch .echoRetry) (l := l) volume chosen append serving other)
    have back := requeued_comm (g := fun q => (q.okayed t).latch .echoRetry) (k := k) (fun _ _ => rfl) s.toPart l.sent
    have marked := setCartridge_comm (g := fun q => (q.okayed t).latch .echoRetry) (fun _ _ => rfl) (fun _ _ _ => rfl)
      (s.requeued k l.sent) h.label .suspect
    rw [back, marked] at abandons
    exact leaves _ abandons

end Sys2Proof.Machine
end

section
/-! SUPPORT. HOLD LANE, RELEASE LANE, UNLOAD, CLEAR ERRORS: a lane held or released, a FAULT cleared, a run taken up or ended
(R93, R104, R105, R108, R122, R145, R186). Settles O39 and O41. -/

namespace Sys2Proof.Machine

/-! ## HOLD LANE, RELEASE LANE and UNLOAD -/

/-- A committed item in service released: nothing else of the lane changes (R93). -/
theorem releaseServed_eq (s : Part) (k : LaneId) :
    s.releaseServed k = s.setLane k { s.lane k with serving := if (s.lane k).committed then none else (s.lane k).serving } := by
  refine congrArg (s.setLane k) ?_
  dsimp only
  split <;> rfl

theorem holdLane_eq {s : Part} {k : LaneId} (present : s.present k = true) :
    s.holdLane (BitVec.ofNat 8 k.num) = Part.accepted ((s.setLane k { s.lane k with
      held := true, serving := if (s.lane k).committed then none else (s.lane k).serving }).touch (.lane k)) 0 := by
  simp only [Part.holdLane, laneArg_ofNat s k present, releaseServed_eq, modLane_setLane]

theorem releaseLane_eq {s : Part} {k : LaneId} (present : s.present k = true) :
    s.releaseLane (BitVec.ofNat 8 k.num) = Part.accepted ((s.setLane k { s.lane k with held := false }).touch (.lane k)) 0 := by
  simp only [Part.releaseLane, laneArg_ofNat s k present, Part.modLane]

/-- UNLOAD of a present lane by the lane's state (R105). -/
theorem unloadDirective_cases {s : Part} {k : LaneId} (present : s.present k = true) :
    ((s.lane k).state = .idle → s.unloadDirective (BitVec.ofNat 8 k.num)
      = Part.accepted (s.setLane k { s.lane k with state := .unloading, pending := some .unload }) 0)
    ∧ ((s.lane k).state ≠ .idle → s.unloadDirective (BitVec.ofNat 8 k.num) = s.refused .state) := by
  simp only [Part.unloadDirective, laneArg_ofNat s k present]
  exact ⟨fun idle => if_pos idle, fun other => if_neg other⟩

/-- Settles O39. -/
theorem holdReleaseUnload : Obligations.HoldReleaseUnload := by
  intro s k present b l
  obtain ⟨unloads, refuses⟩ := unloadDirective_cases (s := s.judging 0x43) present
  exact ⟨fun h => judges_of_touched (c := .holdLane b) rfl h (.lane k) (holdLane_eq (s := s.judging 0x40) present),
    fun h => judges_of_touched (c := .releaseLane b) rfl h (.lane k) (releaseLane_eq (s := s.judging 0x41) present),
    fun h idle => judges_of (c := .unload b) rfl h (unloads idle),
    fun h other => judges_refused (c := .unload b) rfl h (refuses other)⟩

/-! ## CLEAR ERRORS by its target (R186) -/

theorem clearErrors_unknown {s : Part} {b : Byte} (unknown : 3 < b.toNat) : s.clearErrors b = s.refused .parameter := by
  unfold Part.clearErrors
  dsimp only
  split
  case h_5 => rfl
  all_goals omega

theorem clearLane_other {s : Part} {k : LaneId} (other : (s.lane k).state ≠ .fault) : s.clearLane k = s := if_neg other

/-- A lane that leaves FAULT rests by its bay, its section marked (R86, R108). -/
theorem rest_of_fault {s : Part} {k : LaneId} (fault : (s.lane k).state = .fault) :
    s.rest k = (s.setLane k { s.lane k with state := s.restState k }).touch (.lane k) := by
  refine if_neg fun same => ?_
  rcases restState_resting s k with e | e <;> rw [fault, e] at same <;> cases same

/-- The lane out of FAULT, its bay's state shown (R108). -/
def Part.clearedLane (s : Part) (k : LaneId) : Lane :=
  { s.lane k with code := .none, cut := none, state := s.restState k }

theorem clearLane_fault {s : Part} {k : LaneId} (fault : (s.lane k).state = .fault) :
    s.clearLane k = if (s.lane k).run.isOpen then ((s.setLane k (s.clearedLane k)).touch (.lane k)).takeUp k
      else (s.setLane k (s.clearedLane k)).touch (.lane k) := by
  have cleared : (s.modLane k fun l => { l with code := .none, cut := none }).rest k
      = (s.setLane k (s.clearedLane k)).touch (.lane k) := by
    rw [rest_of_fault (by rw [lane_modLane_same]; exact fault), Part.modLane, setLane_setLane, lane_setLane_same]
    rfl
  simp only [Part.clearLane, if_pos fault, cleared, touch_lane, lane_setLane_same]
  rfl

/-- CLEAR ERRORS of a present lane clears it, its detail 1 where the lane was in FAULT (R186). -/
theorem clearErrors_lane {s : Part} {k : LaneId} (present : s.present k = true) :
    s.clearErrors (BitVec.ofNat 8 k.num) = (s.clearLane k).accepted (if (s.lane k).state = .fault then 1 else 0) := by
  cases k with
  | l0 => rfl
  | l1 => exact if_pos (c := s.pins.lnc = true) present

theorem clearErrors_fault {s : Part} {k : LaneId} (present : s.present k = true) (fault : (s.lane k).state = .fault) :
    s.clearErrors (BitVec.ofNat 8 k.num) = (s.clearLane k).accepted 1 := by
  rw [clearErrors_lane present, if_pos fault]

theorem clearErrors_other {s : Part} {k : LaneId} (present : s.present k = true) (other : (s.lane k).state ≠ .fault) :
    s.clearErrors (BitVec.ofNat 8 k.num) = s.accepted 0 := by
  rw [clearErrors_lane present, if_neg other, clearLane_other other]

/-- CLEAR ERRORS of a FAULTED changer sends a QUERY, the changer OFFLINE (R145). -/
theorem clearErrors_changer {s : Part} (faulted : s.changer.state = .faulted) :
    s.clearErrors 2 = Part.accepted (({ s with changer := { s.changer with
      state := .offline, querySent := s.now, sent := s.changer.sent ++ [[0xA7, 0x23, 0x00, 0xDD]]
      out := some { command := .query, entry := none, timer := none, afterReset := false } } } : Part).touch .changer) 1 := by
  change (s.clearChanger).accepted (if s.changer.state = .faulted then 1 else 0) = _
  rw [if_pos faulted, Part.clearChanger, if_pos faulted, ← query_frame]
  rfl

/-! ## A run with nothing left to send (R122) -/

theorem returnChosen_lane (s : Part) (k j : LaneId) : (s.returnChosen k).lane j = s.lane j := by
  obtain same | ⟨_, _, _, _, _, same⟩ := returnChosen_cases s k
  · rw [same]
  · rw [same]; rfl

/-- A run taken up with stop after set and nothing to send ends: the chosen cartridge goes back, and the lane rests without a run
(R122). -/
theorem takeUp_ends {s : Part} {k : LaneId} (other : (s.lane k.other).run.chosen = none)
    (stop : (s.lane k).run.stopAfter = true) (queue : (s.lane k).queue = []) :
    s.takeUp k = (((s.returnChosen k).leaveWaiters k).setLane k
      { (s.lane k).leftVolume with queue := [], run := Run.none }).rest k := by
  have left := leaveVolume_eq (s := s.returnChosen k) (k := k) (by rwa [returnChosen_lane])
  have carried : s.takeUp k = ((s.returnChosen k).setLane k { (s.lane k).leftVolume with queue := [] }).nextVolume k := by
    rw [Part.takeUp, left, returnChosen_lane, Part.carry, modLane_setLane]
    simp only [Lane.leftVolume, queue, List.map_nil]
  have ends : ((s.lane k).run.stopAfter && ([] : List QueueEntry).isEmpty) = true := by rw [stop]; rfl
  rw [carried, Part.nextVolume, lane_setLane_same]
  refine (if_pos ends).trans (congrArg (fun p : Part => p.rest k) ?_)
  exact modLane_setLane ((s.returnChosen k).leaveWaiters k) k _ _

/-- The part with the cartridge `c` at `p` given back: SCRATCH where no LABEL was sent on it (R122). -/
def Part.givenBack (s : Part) (c : Chosen) (p : Loc) : Part :=
  if c.labelled then s else s.setLoc p { s.loc p with state := some .scratch }

theorem givenBack_loc (s : Part) (c : Chosen) (p : Loc) :
    (∀ q, q ≠ p → (s.givenBack c p).loc q = s.loc q)
    ∧ (s.givenBack c p).loc p = (if c.labelled then s.loc p else { s.loc p with state := some .scratch })
    ∧ ∀ q, ((s.givenBack c p).loc q).occ = (s.loc q).occ := by
  unfold Part.givenBack
  split
  · exact ⟨fun _ _ => rfl, rfl, fun _ => rfl⟩
  · refine ⟨fun q apart => loc_setLoc_ne s p q _ apart.symm, loc_setLoc_same s p _, fun q => ?_⟩
    by_cases same : q = p
    · rw [same, loc_setLoc_same]
    · rw [loc_setLoc_ne s p q _ (Ne.symm same)]

theorem returnChosen_library {s : Part} {k : LaneId} {c : Chosen} {p : Loc} (chosen : (s.lane k).run.chosen = some c)
    (occupied : (s.loc p).occ = .occupied) (only : ∀ q, (s.loc q).label = some c.label ↔ q = p) :
    (s.returnChosen k).library = (s.givenBack c p).library := by
  simp only [Part.returnChosen, chosen, Part.returnScratch, findLabel_unique only occupied, Part.givenBack]
  split <;> rfl

/-- A lane at rest without read jobs beside a calm lane: nothing is left to settle but that resting lanes follow their bays. -/
theorem settle_rested (old : Part) {s : Part} (again : Bool) {k : LaneId} (shown : (s.lane k).state = s.restState k)
    (restore : (s.lane k).restore = none) (verify : (s.lane k).verify = none) (loan : (s.lane k).access.loan = .none)
    (other : (s.lane k.other).calm = true) :
    (settle old s again).lane k = s.lane k ∧ (settle old s again).library = s.library := by
  have resting : (s.lane k).resting = true := by
    rw [Lane.resting, shown]
    rcases restState_resting s k with e | e <;> rw [e] <;> rfl
  have calm : (s.lane k).calm = true := calm_of_no_jobs restore verify (by rw [loan]; decide) (.inl resting)
  have first := follow_lane (.inr shown) .l0
  obtain ⟨-, library⟩ := follow_views s .l0
  have shown' : ((s.follow .l0).lane k).state = (s.follow .l0).restState k := by
    rw [first, Part.restState, Part.loc, library]
    exact shown
  rw [settle_calm old again (both_lanes calm other)]
  exact ⟨(follow_lane (.inr shown') .l1).trans first, (follow_views _ .l1).2.trans library⟩

theorem rest_views (s : Part) (k : LaneId) :
    (s.rest k).lane k = { s.lane k with state := s.restState k } ∧ (s.rest k).lane k.other = s.lane k.other
      ∧ (s.rest k).library = s.library := by
  rcases rest_eq s k with same | same <;> rw [same]
  · exact ⟨lane_setLane_same s k _, lane_setLane_other s k _, rfl⟩
  · exact ⟨lane_setLane_same s k _, lane_setLane_other s k _, rfl⟩

/-- A lane with a run that leaves FAULT by CLEAR ERRORS with nothing to send: what is left of the lanes and of the records
(R108, R122). -/
theorem clearLane_ends {s : Part} {k : LaneId} {c : Chosen} {p : Loc} (fault : (s.lane k).state = .fault)
    (opened : (s.lane k).run.isOpen = true) (stop : (s.lane k).run.stopAfter = true) (queue : (s.lane k).queue = [])
    (other : (s.lane k.other).run.chosen = none) (chosen : (s.lane k).run.chosen = some c)
    (occupied : (s.loc p).occ = .occupied) (only : ∀ q, (s.loc q).label = some c.label ↔ q = p) :
    (s.clearLane k).lane k = { (s.clearedLane k).leftVolume with
        queue := [], run := Run.none, state := (s.clearLane k).restState k }
      ∧ (s.clearLane k).lane k.other = s.lane k.other
      ∧ (s.clearLane k).library = (s.givenBack c p).library := by
  obtain ⟨x, cleared⟩ : ∃ x, (s.setLane k (s.clearedLane k)).touch (.lane k) = x := ⟨_, rfl⟩
  have here : x.lane k = s.clearedLane k := cleared ▸ lane_setLane_same s k _
  have beside : x.lane k.other = s.lane k.other := cleared ▸ lane_setLane_other s k _
  have returned : (x.returnChosen k).library = (s.givenBack c p).library := by
    rw [returnChosen_library (c := c) (p := p) (by rw [here]; exact chosen) (cleared ▸ occupied) (cleared ▸ only), ← cleared]
    unfold Part.givenBack
    split <;> rfl
  obtain ⟨y, ended⟩ : ∃ y, ((x.returnChosen k).leaveWaiters k).setLane k
      { (s.clearedLane k).leftVolume with queue := [], run := Run.none } = y := ⟨_, rfl⟩
  have rests : s.clearLane k = y.rest k := by
    rw [clearLane_fault fault, if_pos opened, cleared, takeUp_ends (by rwa [beside]), here, ended]
    · rw [here]; exact stop
    · rw [here]; exact queue
  obtain ⟨lane, apart, library⟩ := rest_views y k
  have shows : (y.rest k).restState k = y.restState k := by rw [Part.restState, Part.loc, library]; rfl
  rw [rests, shows, lane, apart, library, ← ended, lane_setLane_same, lane_setLane_other]
  exact ⟨rfl, (returnChosen_lane x k k.other).trans beside, returned⟩

/-- CLEAR ERRORS of a lane whose run has nothing left to send, as an event (R108, R122). -/
theorem clearErrors_endsRun {s : State} {k : LaneId} {c : Chosen} {p : Loc} (takes : s.takes 0x78) (present : s.present k = true)
    (fault : (s.lane k).state = .fault) (opened : (s.lane k).run.isOpen = true) (stop : (s.lane k).run.stopAfter = true)
    (queue : (s.lane k).queue = []) (restore : (s.lane k).restore = none) (verify : (s.lane k).verify = none)
    (loan : (s.lane k).access.loan = .none) (calm : (s.lane k.other).calm = true) (other : (s.lane k.other).run.chosen = none)
    (chosen : (s.lane k).run.chosen = some c) (occupied : (s.loc p).occ = .occupied)
    (only : ∀ q, (s.loc q).label = some c.label ↔ q = p) :
    ∃ t : State, exec (.clearErrors (BitVec.ofNat 8 k.num)) s = .next t ∧ t.pending = s.pending
      ∧ t.frame = (s.composed 0x78 .accepted 1).frame
      ∧ t.lane k = { (s.clearedLane k).leftVolume with queue := [], run := Run.none, state := t.restState k }
      ∧ t.library = (s.givenBack c p).library := by
  obtain ⟨here, beside, library⟩ := clearLane_ends (s := s.judging 0x78) fault opened stop queue other chosen occupied only
  have judged := clearErrors_fault (s := s.judging 0x78) present fault
  obtain ⟨t, again, next, pending, frame, lanes, -, records⟩ := directive_settles (c := .clearErrors (BitVec.ofNat 8 k.num)) rfl takes
    judged (clearLane_still _ k)
  obtain ⟨rested, kept⟩ := settle_rested s.toPart again (by rw [here]) (by rw [here]; exact restore) (by rw [here]; exact verify)
    (by rw [here]; exact loan) (by rw [beside]; exact calm)
  have shows : t.restState k = ((s.judging 0x78).clearLane k).restState k := by rw [Part.restState, Part.loc, records, kept]; rfl
  exact ⟨t, next, pending, frame, by rw [shows]; exact ((lane_of_lanes lanes k).trans rested).trans here,
    (records.trans kept).trans (library.trans (by unfold Part.givenBack; split <;> rfl))⟩

/-- Settles O41: `clearLane_fault` and `clearErrors_changer` say what is cleared, `clearErrors_endsRun` how a run ends. -/
theorem clearErrorsClears : Obligations.ClearErrorsClears := by
  intro s takes
  refine ⟨fun k present fault closed => ?_,
    fun k present other => judges_of rfl takes (clearErrors_other (s := s.judging 0x78) present other),
    fun faulted => judges_of_touched rfl takes .changer (clearErrors_changer (s := s.judging 0x78) faulted),
    fun b unknown => judges_refused rfl takes (clearErrors_unknown unknown),
    fun k c p present fault opened stop queue restore verify loan calm other chosen occupied only => ?_⟩
  · have judged := clearErrors_fault (s := s.judging 0x78) present fault
    have shut : ¬ ((s.judging 0x78).lane k).run.isOpen = true := ne_true_of_eq_false closed
    rw [clearLane_fault (s := s.judging 0x78) fault, if_neg shut] at judged
    exact judges_of_touched rfl takes (.lane k) judged
  · obtain ⟨t, next, pending, frame, here, library⟩ := clearErrors_endsRun takes present fault opened stop queue restore verify loan calm
      other chosen occupied only
    obtain ⟨apart, record, occ⟩ := givenBack_loc s.toPart c p
    have records := loc_of_library library
    have rests : t.restState k = s.restState k := by rw [Part.restState, records, occ]; rfl
    rw [rests] at here
    exact ⟨t, next, pending, frame, by rw [here]; rfl, by rw [here]; rfl, by rw [here]; rfl, by rw [here]; rfl,
      fun q ne => (records q).trans (apart q ne), (records p).trans record⟩

end Sys2Proof.Machine
end

section
/-! SUPPORT. Send reads: the bytes of the item served, the last read of a DATA block or a LABEL, the partial-read timer
(R88, R90, R91, R93, R117, R122). Settles O19. -/

namespace Sys2Proof.Machine

/-! ## Transactions given as one of a kind -/

section KindEvent
variable {c : Instr} {s : State} {t : Txn} {p : Treatment → Bool} (named : exec c s = kindEvent s t p)
  (high : s.pins.resetLow = false) (kind : p (s.classify t) = true)
include named high kind

/-- A transaction given as one of its kind leaves what the transaction leaves. -/
theorem kindEvent_leaves : Leaves c s (s.clientTransaction t) := by
  have leaves := laneEvent_leaves c s _ named high
  rwa [if_pos kind] at leaves

/-- A transaction given as one of its kind, with what the lanes then settle. -/
theorem kindEvent_next :
    exec c s = .next { s with toPart := report s.toPart (settle s.toPart (s.toPart.clientTransaction t) false) } := by
  rw [named, kindEvent, laneEvent, event_next s _ high, if_pos kind]

/-- A transaction given as one of its kind: what its next state shows of the lanes, the records and the Span Table. -/
theorem kindEvent_settles {x : Part} {a : Answer} (effect : s.clientTransaction t = x.acceptedAs t (.ready a) none)
    (still : x.still = s.still) :
    ∃ u : State, exec c s = .next u ∧ u.pending = s.pending ∧ u.frame = s.frame
      ∧ u.lanes = (settle s.toPart (s.clientTransaction t) false).lanes
      ∧ u.library = (settle s.toPart (s.clientTransaction t) false).library
      ∧ u.span = (settle s.toPart (s.clientTransaction t) false).span := by
  refine ⟨_, kindEvent_next named high kind, rfl, ?_, report_lanes _ _, report_library _ _, report_span _ _⟩
  rw [report_frame, frame_of_still (settle_still _ _ _), effect]
  exact frame_of_still (a := x) still

/-- A transaction given as one of its kind and decided at once, with nothing left to settle: its next state and its answer. -/
theorem kindEvent_answers {x : Part} {a : Answer} (effect : s.clientTransaction t = x.acceptedAs t (.ready a) none)
    (alone : x.bus.waiting = []) (quiet : x.quiet = true) :
    ∃ u : State, exec c s = .next u ∧ u.pending = s.pending ∧ u.blocks = x.blocks ∧ u.unit.latched = x.unit.latched
      ∧ u.bus.waiting = [] ∧ u.bus.answered = x.bus.answered ++ [a] := by
  have settled : settle s.toPart (s.clientTransaction t) false = x.acceptedAs t (.ready a) none := by
    rw [effect]
    exact settle_quiet _ (x.acceptedAs t (.ready a) none) _ quiet
  obtain ⟨waiting, answered, latched⟩ := report_ready s.toPart x t none alone a
  refine ⟨_, kindEvent_next named high kind, rfl, ?_⟩
  rw [settled, report_blocks]
  exact ⟨rfl, latched, waiting, answered⟩

end KindEvent

/-- Whether a transaction is a send read (R31). -/
def sends (x : Treatment) : Bool := match x with
  | .send .. => true
  | _ => false

theorem exec_sendRead (t : Txn) (s : State) : exec (.sendRead t) s = kindEvent s t sends := rfl

theorem exec_returnWrite (t : Txn) (s : State) : exec (.returnWrite t) s = kindEvent s t returns := rfl

theorem clientTransaction_send {s : Part} {t : Txn} {k : LaneId} {off : Nat} (kind : s.classify t = .send k off) :
    s.clientTransaction t = (s.accept t).2.sendRead k s.bus.nextId off t.beats := by
  unfold Part.clientTransaction
  rw [kind]
  rfl

/-! ## A lane changed where the calm lanes do not look -/

/-- A lane that stays in its state and as calm as it was leaves the part as quiet as it was. -/
theorem quiet_setLane {s : Part} {k : LaneId} {l : Lane} (calm : l.calm = (s.lane k).calm) (state : l.state = (s.lane k).state) :
    (s.setLane k l).quiet = s.quiet := by
  have resting : l.resting = (s.lane k).resting := by rw [Lane.resting, state, Lane.resting]
  have follows : ∀ j, (s.setLane k l).follows j = s.follows j := by
    refine both_lanes (k := k) ?_ ?_
    · rw [Part.follows, Part.follows, lane_setLane_same, resting, state]
      rfl
    · rw [Part.follows, Part.follows, lane_setLane_other]
      rfl
  have calms : ∀ j, ((s.setLane k l).lane j).calm = (s.lane j).calm := by
    refine both_lanes (k := k) ?_ ?_
    · rw [lane_setLane_same, calm]
    · rw [lane_setLane_other]
  rw [Part.quiet, Part.quiet, calms, calms, follows, follows]

/-! ## The bytes served (R90) -/

/-- The bytes of a list, one by one. -/
theorem map_byteAt (bs : List Byte) : (List.range bs.length).map (byteAt bs) = bs := by
  refine List.ext_getElem (by simp) fun i _ inside => ?_
  simp [byteAt, List.getElem?_eq_getElem inside]

theorem bytes_header {v : Serving} (long : v.header.length = 32) (poff : Nat) (payload : List Byte) :
    v.bytes 0 32 poff payload = v.header := by
  rw [← long]
  refine (List.map_congr_left fun i m => ?_).trans (map_byteAt v.header)
  have inside : 0 + i < 32 := by have := List.mem_range.mp m; omega
  rw [if_pos inside, Nat.zero_add]

theorem bytes_payload {v : Serving} {e : QueueEntry} {q off : Nat} {data : List Byte} (item : v.item = .data e q) (low : 32 ≤ off)
    (high : off + data.length ≤ 32752) : v.bytes off data.length off data = data := by
  refine (List.map_congr_left fun i m => ?_).trans (map_byteAt data)
  have inside := List.mem_range.mp m
  rw [if_neg (by omega), if_neg (by omega), item, Nat.add_sub_cancel_left]

theorem bytes_trailer {v : Serving} (long : v.trailer.length = 16) (poff : Nat) (payload : List Byte) :
    v.bytes 32752 16 poff payload = v.trailer := by
  rw [← long]
  refine (List.map_congr_left fun i m => ?_).trans (map_byteAt v.trailer)
  rw [if_neg (by omega), if_pos (by omega), Nat.add_sub_cancel_left]

/-! ## Reads answered -/

theorem okay_lane (s : Part) (id : Nat) (data : List Byte) (k : LaneId) : (s.okay id data).lane k = s.lane k := by
  unfold Part.okay
  split <;> rfl

/-- A read of a committed item between its header and its end moves the next expected offset and starts the partial-read timer
again (R88, R93). -/
theorem answerSend_between {s : Part} {v : Serving} (k : LaneId) (id off beats poff : Nat) (payload : List Byte)
    (committed : v.committed = true) (low : 32 ≤ off) (high : off + 8 * beats ≤ 32752) :
    s.answerSend k id v off beats poff payload = (s.okay id (v.bytes off (8 * beats) poff payload)).setLane k { s.lane k with
      serving := some { v with next := off + 8 * beats, timer := some ⟨s.now, 30000000⟩ } } := by
  have header : decide (off ≤ 31 ∧ 31 < off + 8 * beats) = false := decide_eq_false (by omega)
  have now : (s.okay id (v.bytes off (8 * beats) poff payload)).now = s.now := by
    unfold Part.okay
    split <;> rfl
  simp only [Part.answerSend, committed, header, if_true, Bool.and_false, Bool.false_eq_true, if_false, Part.modLane, okay_lane,
    if_neg (show ¬ 32767 < off + 8 * beats by omega), Part.timer, Config.second, now]

/-- An own read of pool memory answered, as an event (R31, R90). -/
theorem poolRead_next {s : State} {a : OwnAccess} {k : LaneId} {id : Nat} {data : List Byte} (high : s.pins.resetLow = false)
    (port : s.bus.port = some (.own a false)) (kind : a.kind = .poolRead k id) (length : data.length = 8 * a.beats) :
    exec (.poolReadAnswered true data) s
      = .next { s with toPart := report s.toPart (settle s.toPart (s.freePort.poolReadAnswered k id true data) false) } := by
  refine (event_next s _ high).trans ?_
  simp only [Part.ownAnswered, port, kind, ← length, padTo_of_length, Bool.not_true, Bool.false_eq_true, if_false]

/-- A pool read answered for the one send read that waits for it (R88, R90, R93). -/
theorem poolReadAnswered_serves {s : Part} {k : LaneId} {id off : Nat} {t : Txn} {v : Serving} {e : QueueEntry} {q : Nat}
    {held : Option Nat} {data : List Byte} (waiting : s.bus.waiting = [⟨id, t, .send k v.id off, held⟩])
    (serving : (s.lane k).serving = some v) (item : v.item = .data e q) (committed : v.committed = true) (low : 32 ≤ off)
    (high : off + 8 * t.beats ≤ 32752) (length : data.length = 8 * t.beats) :
    s.poolReadAnswered k id true data = (s.setWait id (.ready ⟨t.tag, true, none, data⟩)).setLane k { s.lane k with
      serving := some { v with next := off + 8 * t.beats, timer := some ⟨s.now, 30000000⟩ } } := by
  have found : s.findTxn id = some ⟨id, t, .send k v.id off, held⟩ := by simp [Part.findTxn, waiting]
  have bytes : v.bytes off (8 * t.beats) (max off 32) data = data := by
    rw [Nat.max_eq_left low, ← length]
    exact bytes_payload item low (by omega)
  simp only [Part.poolReadAnswered, if_true, found, serving]
  rw [answerSend_between k id off t.beats (max off 32) data committed low high, bytes, Part.okay, found]

/-- A send read that memory has served: the only transaction unanswered is answered (R88, R90, R93). -/
theorem poolRead_event {s : State} {k : LaneId} {id off : Nat} {t : Txn} {v : Serving} {e : QueueEntry} {q : Nat} {a : OwnAccess}
    {held : Option Nat} {data : List Byte} (high : s.pins.resetLow = false) (port : s.bus.port = some (.own a false))
    (kind : a.kind = .poolRead k id) (waiting : s.bus.waiting = [⟨id, t, .send k v.id off, held⟩])
    (serving : (s.lane k).serving = some v) (item : v.item = .data e q) (committed : v.committed = true) (low : 32 ≤ off)
    (inside : off + 8 * t.beats ≤ 32752) (length : data.length = 8 * a.beats) (beats : a.beats = t.beats) (quiet : s.quiet = true) :
    ∃ u : State, exec (.poolReadAnswered true data) s = .next u ∧ u.pending = s.pending
     ∧ u.blocks = (s.setLane k { s.lane k with
         serving := some { v with next := off + 8 * t.beats, timer := some ⟨s.now, 30000000⟩ } }).blocks
     ∧ u.unit.latched = s.unit.latched ∧ u.bus.waiting = [] ∧ u.bus.answered = s.bus.answered ++ [⟨t.tag, true, none, data⟩] := by
  obtain ⟨l, lane⟩ : ∃ l, ({ s.lane k with
    serving := some { v with next := off + 8 * t.beats, timer := some ⟨s.now, 30000000⟩ } } : Lane) = l := ⟨_, rfl⟩
  obtain ⟨y, ready⟩ : ∃ y, s.freePort.setWait id (.ready ⟨t.tag, true, none, data⟩) = y := ⟨_, rfl⟩
  have same : ∀ j, y.lane j = s.lane j := fun j => by rw [← ready]; rfl
  have calm : (y.setLane k l).quiet = true := by
    rw [quiet_setLane (by rw [same, ← lane]; rfl) (by rw [same, ← lane]), ← ready]
    exact quiet
  have effect : s.freePort.poolReadAnswered k id true data = y.setLane k l := by
    rw [poolReadAnswered_serves (s := s.freePort) waiting serving item committed low inside (beats ▸ length), ready, ← lane]
    rfl
  have free : (y.setLane k l).bus.waiting = [⟨id, t, .ready ⟨t.tag, true, none, data⟩, held⟩] := by
    rw [← ready, setLane_bus, Part.setWait, Part.freePort]
    simp only [waiting, List.map_cons, List.map_nil, if_true]
  refine ⟨_, poolRead_next high port kind length, rfl, ?_⟩
  rw [effect, settle_quiet _ _ _ calm, report_blocks, report_latched, report_waiting, report_answered, free, ← ready, ← lane]
  exact ⟨rfl, rfl, rfl, rfl⟩

/-- The partial-read timer that runs out releases the item in service (R93). -/
theorem partialReadTimer_releases {s : Part} {k : LaneId} {v : Serving} {tm : Timer} (serving : (s.lane k).serving = some v)
    (committed : v.committed = true) (runs : v.timer = some tm) (due : tm.start + tm.period ≤ s.now) :
    s.partialReadTimer k = s.setLane k { s.lane k with serving := none } := by
  have out : (v.committed && s.ranOut v.timer) = true := by rw [committed, ranOut_due runs due]; rfl
  have held : (s.lane k).committed = true := by simp only [Lane.committed, serving, committed]
  simp only [Part.partialReadTimer, serving, if_pos out, releaseServed_eq, if_pos held]

/-! ## The read through offset 32767 (R91) -/

/-- The read of a block's trailer needs no own read (R90). -/
theorem serveRead_last {s : Part} {k : LaneId} {v : Serving} (serving : (s.lane k).serving = some v) (id : Nat) :
    s.serveRead k id 32752 2 = s.answerSend k id v 32752 2 0 [] := by
  simp only [Part.serveRead, serving]
  split <;> rfl

/-- The answer to the last read of a committed item finishes the item (R88, R91). -/
theorem answerSend_last {v : Serving} (committed : v.committed = true) (s : Part) (k : LaneId) (id : Nat) :
    s.answerSend k id v 32752 2 0 [] = ((s.okay id (v.bytes 32752 16 0 [])).modLane k fun l => { l with
      serving := some { v with next := 32768, timer := some ((s.okay id (v.bytes 32752 16 0 [])).timer 30000000) } }).itemFinished k
        { v with next := 32768, timer := some ((s.okay id (v.bytes 32752 16 0 [])).timer 30000000) } := by
  have header : decide (32752 ≤ 31 ∧ 31 < 32752 + 8 * 2) = false := rfl
  have last : 32767 < 32752 + 8 * 2 := by decide
  simp only [Part.answerSend, committed, header, Bool.and_false, Bool.false_eq_true, if_false, if_pos last, lane_modLane_same,
    if_true, Config.second]

/-- The last read of a committed item is answered with the item's trailer and finishes the item (R88, R91). -/
theorem lastRead_finishes {s : Part} {t : Txn} {k : LaneId} {v : Serving} (kind : s.classify t = .send k 32752) (beats : t.beats = 2)
    (alone : s.bus.waiting = []) (serving : (s.lane k).serving = some v) (committed : v.committed = true) (next : v.next = 32752) :
    ∃ w : Serving, w.item = v.item ∧ w.headerCheck = v.headerCheck ∧ w.payloadCheck = v.payloadCheck
      ∧ s.clientTransaction t = ((s.acceptedAs t (.ready ⟨t.tag, true, none, v.bytes 32752 16 0 []⟩) none).modLane k
          fun l => { l with serving := some w }).itemFinished k w := by
  refine ⟨{ v with next := 32768, timer := some ⟨s.now, 30000000⟩ }, rfl, rfl, rfl, ?_⟩
  have read : s.clientTransaction t = (s.accept t).2.answerSend k s.bus.nextId v 32752 2 0 [] := by
    rw [clientTransaction_send kind, beats, Part.sendRead, if_neg (by decide)]
    simp only [show (s.accept t).2.lane k = s.lane k from rfl, serving, next, if_true]
    exact serveRead_last (s := (s.accept t).2) serving _
  rw [read, answerSend_last committed, accept_okay s t (fresh_of_alone s alone)]
  rfl

/-- Lane `k` after a DATA block is sent whose entry is the head of its queue (R91, R117). -/
def Part.dataSent (s : Part) (k : LaneId) (e : QueueEntry) (q headerCheck payloadCheck : Nat) : Lane :=
  let l := s.lane k
  { l with
    serving := none
    queue := l.queue.drop 1
    sent := l.sent ++ [⟨.data e.buf, q, e.rewrites, e.carried, headerCheck, payloadCheck, s.now⟩]
    volume := l.volume.map (fun n => { n with positions := n.positions + 1 })
    run := { l.run with due := if l.state = .closing then l.run.due - 1 else l.run.due } }

theorem itemFinished_data {s : Part} {k : LaneId} {v : Serving} {e : QueueEntry} {q : Nat} (item : v.item = .data e q) :
    s.itemFinished k v = (s.setCopy k e.buf .sent).setLane k (s.dataSent k e q v.headerCheck v.payloadCheck) := by
  simp only [Part.itemFinished, item]
  cases k <;> rfl

/-- The last read of a DATA block sends it (R90, R91). -/
theorem dataRead_sends {s : Part} {t : Txn} {k : LaneId} {v : Serving} {e : QueueEntry} {q : Nat}
    (kind : s.classify t = .send k 32752) (beats : t.beats = 2) (alone : s.bus.waiting = []) (serving : (s.lane k).serving = some v)
    (item : v.item = .data e q) (committed : v.committed = true) (next : v.next = 32752) :
    s.clientTransaction t = ((s.setCopy k e.buf .sent).setLane k (s.dataSent k e q v.headerCheck v.payloadCheck)).acceptedAs t
      (.ready ⟨t.tag, true, none, v.bytes 32752 16 0 []⟩) none := by
  obtain ⟨w, same, header, payload, finishes⟩ := lastRead_finishes kind beats alone serving committed next
  rw [finishes, itemFinished_data (same.trans item), header, payload]
  cases k <;> rfl

theorem itemFinished_label {s : Part} {k : LaneId} {v : Serving} {r : Nat} {n : Volume} (item : v.item = .label r)
    (volume : (s.lane k).volume = some n) :
    s.itemFinished k v = (s.setLane k { s.lane k with
        serving := none
        pending := none
        sent := (s.lane k).sent ++ [⟨.label, 0, r, false, v.headerCheck, v.payloadCheck, s.now⟩]
        volume := some { n with positions := n.positions + 1 }
        run := (s.lane k).run.labelSent n.label }).setLane k.other
      { s.lane k.other with run := (s.lane k.other).run.labelSent n.label } := by
  simp only [Part.itemFinished, item, Part.noteLabel, Part.modLane, setLane_setLane, lane_setLane_same, lane_setLane_other, volume,
    Option.map_some]

/-- The last read of a LABEL sends it (R91, R122). -/
theorem labelRead_sends {s : Part} {t : Txn} {k : LaneId} {v : Serving} {r : Nat} {n : Volume} (kind : s.classify t = .send k 32752)
    (beats : t.beats = 2) (alone : s.bus.waiting = []) (serving : (s.lane k).serving = some v) (item : v.item = .label r)
    (committed : v.committed = true) (next : v.next = 32752) (volume : (s.lane k).volume = some n) :
    s.clientTransaction t = ((s.setLane k { s.lane k with
        serving := none
        pending := none
        sent := (s.lane k).sent ++ [⟨.label, 0, r, false, v.headerCheck, v.payloadCheck, s.now⟩]
        volume := some { n with positions := n.positions + 1 }
        run := (s.lane k).run.labelSent n.label }).setLane k.other
      { s.lane k.other with run := (s.lane k.other).run.labelSent n.label }).acceptedAs t
        (.ready ⟨t.tag, true, none, v.bytes 32752 16 0 []⟩) none := by
  obtain ⟨w, same, header, payload, finishes⟩ := lastRead_finishes kind beats alone serving committed next
  rw [finishes, itemFinished_label (same.trans item) (by rw [lane_modLane_same]; exact volume), header, payload]
  cases k <;> rfl

/-! ## Early warning of both lanes of a twin run (R117, R124) -/

/-- No read job, loan or owed EOV of the lane. -/
structure Lane.Unoccupied (l : Lane) : Prop where
  restore : l.restore = none
  verify : l.verify = none
  loan : l.access.loan = .none
  owed : l.owedEov = none

/-- The lane is in CLOSING by early warning with `d` blocks due (R117). -/
structure Lane.IsWarned (l : Lane) (d : Nat) : Prop extends l.Unoccupied where
  state : l.state = .closing
  warned : l.run.warned = true
  due : l.run.due = d

theorem Lane.Unoccupied.warned {l : Lane} (h : l.Unoccupied) : l.warned.Unoccupied := ⟨h.restore, h.verify, h.loan, h.owed⟩

/-- Both lanes of a twin run are in APPEND, their queues as long as `d` says, with no open block. -/
structure Part.Poised (s : Part) (d : LaneId → Nat) : Prop where
  both : s.twinRun = true
  state : ∀ j, (s.lane j).state = .append
  length : ∀ j, (s.lane j).queue.length = d j
  free : ∀ j, (s.lane j).Unoccupied
  closed : ∀ j, (s.asm j).openBlock = none

/-- Closing segments changes no lane. -/
theorem closeSegments_lane (is : List (Fin 8)) (s : Part) (j : LaneId) : (is.foldl Part.closeOpenSegment s).lane j = s.lane j := by
  refine foldl_view (·.lane j) Part.closeOpenSegment (fun s i => ?_) is s
  unfold Part.closeOpenSegment Part.closeSegment Part.offer
  split
  · split <;> rfl
  · rfl

/-- An EOV made pending leaves both lanes warned (R118). -/
theorem eovStep_warned {s : Part} {d : LaneId → Nat} (h : ∀ j, (s.lane j).IsWarned (d j)) (k j : LaneId) :
    ((s.eovStep k).lane j).IsWarned (d j) := by
  unfold Part.eovStep
  simp only [(h k).owed]
  split
  · split
    · exact h j
    · obtain ⟨t, closed⟩ : ∃ t, (s.boundStreams (if s.twin.on then s.twin.primary else k)).foldl Part.closeOpenSegment s = t := ⟨_, rfl⟩
      have same : ∀ i, t.lane i = s.lane i := fun i => closed ▸ closeSegments_lane _ s i
      rw [closed]
      simp only [Part.makeEov, Part.modLane, lane_setLane_same, setLane_setLane, same]
      obtain rfl | rfl := eq_or_eq_other j k
      · rw [lane_setLane_same]
        exact ⟨⟨(h j).restore, (h j).verify, (h j).loan, rfl⟩, (h j).state, (h j).warned, (h j).due⟩
      · rw [lane_setLane_other, same]
        exact h k.other
  · exact h j

theorem volumeStep_warned {s : Part} {d : LaneId → Nat} (h : ∀ j, (s.lane j).IsWarned (d j)) (k j : LaneId) :
    ((s.volumeStep k).lane j).IsWarned (d j) := by
  have same : s.volumeStep k = s.eovStep k := by simp only [Part.volumeStep, (h k).state]
  rw [same]
  exact eovStep_warned h k j

theorem judgeVolumes_warned {s : Part} {d : LaneId → Nat} (h : ∀ j, (s.lane j).IsWarned (d j)) (j : LaneId) :
    (s.judgeVolumes.lane j).IsWarned (d j) :=
  eovStep_warned (volumeStep_warned (volumeStep_warned h .l0) .l1) .l0 j

/-- A lane whose limit is near warns both lanes of its twin run (R117, R124). -/
theorem volumeStep_warns {s : Part} {d : LaneId → Nat} (h : s.Poised d) {k : LaneId} {n : Volume} (volume : (s.lane k).volume = some n)
    (near : (s.lane k).run.limit ≤ n.positions + 80) (j : LaneId) : ((s.volumeStep k).lane j).IsWarned (d j) := by
  have warns := earlyWarning_twin (fun j _ => h.closed j) h.both (h.state k.other)
  simp only [Part.volumeStep, h.state k, volume, if_pos near, warns]
  refine eovStep_warned (both_lanes (k := k) ?_ ?_) k j
  · have here : ((s.setLane k (s.lane k).warned).setLane k.other (s.lane k.other).warned).lane k = (s.lane k).warned := by
      cases k <;> rfl
    rw [here]
    exact ⟨(h.free k).warned, rfl, rfl, h.length k⟩
  · rw [lane_setLane_same]
    exact ⟨(h.free k.other).warned, rfl, rfl, h.length k.other⟩

/-- A lane in APPEND warns both lanes of its twin run, or nothing changes (R117, R124). -/
theorem volumeStep_poised {s : Part} {d : LaneId → Nat} (h : s.Poised d) (k : LaneId) :
    s.volumeStep k = s ∨ ∀ j, ((s.volumeStep k).lane j).IsWarned (d j) := by
  by_cases near : ∃ n, (s.lane k).volume = some n ∧ (s.lane k).run.limit ≤ n.positions + 80
  · obtain ⟨n, volume, near⟩ := near
    exact .inr (volumeStep_warns h volume near)
  · have far : s.volumeStep k = s.eovStep k := by
      simp only [Part.volumeStep, h.state k]
      split
      · next n _ volume => exact congrArg (Part.eovStep · k) (if_neg fun le => near ⟨n, volume, le⟩)
      · rfl
    exact .inl (far.trans (by simp only [Part.eovStep, h.state k]))

/-- Both lanes judged, the one near its limit among them: both are warned (R117, R124). -/
theorem judgeVolumes_warns {s : Part} {d : LaneId → Nat} (h : s.Poised d) {k : LaneId} {n : Volume}
    (volume : (s.lane k).volume = some n) (near : (s.lane k).run.limit ≤ n.positions + 80) (j : LaneId) :
    (s.judgeVolumes.lane j).IsWarned (d j) := by
  cases k
  case l0 => exact eovStep_warned (volumeStep_warned (volumeStep_warns h volume near) .l1) .l0 j
  case l1 =>
    refine eovStep_warned (fun i => ?_) .l0 j
    rcases volumeStep_poised h .l0 with same | warned
    · rw [same]
      exact volumeStep_warns h volume near i
    · exact volumeStep_warned warned .l1 i

/-- The volume logic on lanes already warned (R117). -/
theorem rechoose_warned {s : Part} {d : LaneId → Nat} (h : ∀ j, (s.lane j).IsWarned (d j)) : s.rechoose = s := by
  have busy : ∀ j, ((s.lane j).state == .waitingMedia) = false := fun j => by rw [(h j).state]; rfl
  simp [Part.rechoose, busy]

/-- At the end of the event that brings a lane of a twin run near its limit both lanes are warned (R117, R124). -/
theorem settle_warns (old : Part) {s : Part} {d : LaneId → Nat} (again : Bool) (h : s.Poised d) {k : LaneId} {n : Volume}
    (volume : (s.lane k).volume = some n) (near : (s.lane k).run.limit ≤ n.positions + 80) (j : LaneId) :
    ((settle old s again).lane j).IsWarned (d j) := by
  have judged := judgeVolumes_warns h volume near
  have logic : ∀ i, ((Part.volumeLogic old s again).lane i).IsWarned (d i) := by
    intro i
    unfold Part.volumeLogic
    dsimp only
    split
    · rw [rechoose_warned judged]
      exact judgeVolumes_warned judged i
    · exact judged i
  obtain ⟨x, made⟩ : ∃ x, Part.volumeLogic old s again = x := ⟨_, rfl⟩
  have loans : ∀ i, x.loanStep i = x := fun i =>
    if_neg fun lent => by rw [← made, (logic i).loan] at lent; cases lent.1
  have busy : (x.lane j).resting = false := by rw [Lane.resting, ← made, (logic j).state]; rfl
  have first := follow_working busy .l0
  have jobs : ∀ i, (s.verifyStep i).restoreStep i = s := fun i => by
    rw [verifyStep_of_none (h.free i).verify, restoreStep_of_none (h.free i).restore]
  simp only [settle, jobs, made, loans]
  rw [follow_working (by rw [first]; exact busy), first, ← made]
  exact logic j

/-! ## The statement -/

/-- The trailer of a DATA block, served by its last read (R90). -/
theorem dataTrailer {v : Serving} {e : QueueEntry} {q : Nat} (item : v.item = .data e q) :
    v.bytes 32752 16 0 [] = leBytes 4 v.payloadCheck ++ leBytes 4 v.headerCheck ++ [0x4B, 0x44, 0x53, 0x45] ++ zeros 4 := by
  have trailer : v.trailer = leBytes 4 v.payloadCheck ++ leBytes 4 v.headerCheck ++ [0x4B, 0x44, 0x53, 0x45] ++ zeros 4 := by
    simp only [Serving.trailer, item]
    rfl
  rw [bytes_trailer (by simp [trailer, leBytes, zeros]), trailer]

/-- A twin run with no open block, its lanes in APPEND, is poised after a DATA block is sent. -/
theorem poised_dataSent {s : Part} {k : LaneId} (b : Nat) {l : Lane} {d : LaneId → Nat} (both : s.twinRun = true)
    (state : ∀ j, (s.lane j).state = .append) (free : ∀ j, (s.lane j).Unoccupied) (closed : ∀ j, (s.asm j).openBlock = none)
    (opened : l.run.isOpen = (s.lane k).run.isOpen) (role : l.run.role = (s.lane k).run.role) (appends : l.state = .append)
    (vacant : l.Unoccupied) (length : l.queue.length = d k) (other : (s.lane k.other).queue.length = d k.other) :
    ((s.setCopy k b .sent).setLane k l).Poised d where
  both := (twinRun_setLane opened role).trans both
  state := both_lanes (k := k) (by rw [lane_setLane_same]; exact appends) (by rw [lane_setLane_other]; exact state k.other)
  length := both_lanes (k := k) (by rw [lane_setLane_same]; exact length) (by rw [lane_setLane_other]; exact other)
  free := both_lanes (k := k) (by rw [lane_setLane_same]; exact vacant) (by rw [lane_setLane_other]; exact free k.other)
  closed j := by cases k <;> exact closed j

/-- How many blocks wait on lane `j` once lane `k` has sent the head of its queue. -/
def Part.leftAfter (s : Part) (k j : LaneId) : Nat := ((s.lane j).queue.drop (if j = k then 1 else 0)).length

section DataRead
variable {s : State} {t : Txn} {k : LaneId} {v : Serving} {e : QueueEntry} {q : Nat} (high : s.pins.resetLow = false)
  (kind : s.classify t = .send k 32752) (beats : t.beats = 2) (alone : s.bus.waiting = []) (serving : (s.lane k).serving = some v)
  (item : v.item = .data e q) (committed : v.committed = true) (next : v.next = 32752)
include high kind beats alone serving item committed next

/-- The DATA block whose last read brings its lane near the limit warns both lanes of the twin run (R117, R124). -/
theorem dataRead_warns {n : Volume} (both : s.twinRun = true) (append : ∀ j, (s.lane j).state = .append)
    (volume : (s.lane k).volume = some n) (near : (s.lane k).run.limit ≤ n.positions + 81) (free : ∀ j, (s.lane j).Unoccupied)
    (closed : ∀ j, (s.asm j).openBlock = none) :
    ∃ u : State, exec (.sendRead t) s = .next u ∧ u.pending = s.pending ∧ u.frame = s.frame
      ∧ (u.lane k).IsWarned ((s.lane k).queue.drop 1).length ∧ (u.lane k.other).IsWarned (s.lane k.other).queue.length := by
  have sent := dataRead_sends kind beats alone serving item committed next
  obtain ⟨u, exec, pending, frame, lanes, -, -⟩ := kindEvent_settles (exec_sendRead t s) high (by rw [kind]; rfl) sent (by simp)
  obtain ⟨l, made⟩ : ∃ l, s.dataSent k e q v.headerCheck v.payloadCheck = l := ⟨_, rfl⟩
  obtain ⟨y, accepted⟩ : ∃ y, s.clientTransaction t = y := ⟨_, rfl⟩
  rw [accepted] at lanes
  rw [made, accepted] at sent
  have due : s.leftAfter k k = ((s.lane k).queue.drop 1).length := by rw [Part.leftAfter, if_pos rfl]
  have other : s.leftAfter k k.other = (s.lane k.other).queue.length := by
    rw [Part.leftAfter, if_neg (laneId_other_ne k), List.drop_zero]
  have poised : ((s.setCopy k e.buf .sent).setLane k l).Poised (s.leftAfter k) := by
    subst made
    exact poised_dataSent e.buf both append free closed rfl rfl (append k)
      ⟨(free k).restore, (free k).verify, (free k).loan, (free k).owed⟩ due.symm other.symm
  have waits : y.Poised (s.leftAfter k) := by
    subst sent
    exact ⟨poised.both, poised.state, poised.length, poised.free, poised.closed⟩
  have here : y.lane k = l := by
    subst sent
    exact lane_setLane_same _ k l
  have volume' : (y.lane k).volume = some { n with positions := n.positions + 1 } := by
    rw [here, ← made]
    exact congrArg (Option.map _) volume
  have near' : (y.lane k).run.limit ≤ n.positions + 1 + 80 := by
    rw [here, ← made]
    exact near
  have warned : ∀ j, (u.lane j).IsWarned (s.leftAfter k j) := fun j => by
    rw [lane_of_lanes lanes j]
    exact settle_warns s.toPart false waits volume' near' j
  exact ⟨u, exec, pending, frame, due ▸ warned k, other ▸ warned k.other⟩

/-- The last read of a DATA block is answered with the block's trailer (R90). -/
theorem dataRead_answered
    (quiet : ((s.setCopy k e.buf .sent).setLane k (s.dataSent k e q v.headerCheck v.payloadCheck)).quiet = true) {u : State}
    (moves : exec (.sendRead t) s = .next u) : u.bus.answered = s.bus.answered ++ [⟨t.tag, true, none,
      leBytes 4 v.payloadCheck ++ leBytes 4 v.headerCheck ++ [0x4B, 0x44, 0x53, 0x45] ++ zeros 4⟩] := by
  obtain ⟨w, exec, -, -, -, -, answered⟩ := kindEvent_answers (exec_sendRead t s) high (by rw [kind]; rfl)
    (dataRead_sends kind beats alone serving item committed next) alone quiet
  rw [exec, Host.Outcome.next.injEq] at moves
  rw [← moves, ← dataTrailer item, answered]
  rfl

end DataRead

/-- Settles O19: `poolRead_event`, `partialReadTimer_releases`, `dataRead_sends` with `dataRead_warns`, and `labelRead_sends`. -/
theorem sendReadServedOrReleased : Obligations.SendReadServedOrReleased := by
  refine ⟨fun s k id off t v e q a held data high port kind waiting serving item committed low inside length beats quiet =>
      poolRead_event high port kind waiting serving item committed low inside length beats quiet,
    fun s k v tm high serving committed runs due => ?_,
    fun s t k v e y q rest high kind beats alone serving item committed next queue => ?_,
    fun s t k v n r high kind beats alone serving item committed next volume => ?_⟩
  · have leaves := laneEvent_leaves (.partialReadTimer k) s (fun p => p.partialReadTimer k) rfl high
    rwa [partialReadTimer_releases serving committed runs due] at leaves
  · have drop : rest = (s.lane k).queue.drop 1 := by rw [queue]; rfl
    subst drop
    refine ⟨leaves_of_accepted (dataRead_sends kind beats alone serving item committed next ▸
        kindEvent_leaves (exec_sendRead t s) high (by rw [kind]; rfl)), fun n both append other volume near calm calm' => ?_,
      fun quiet u moves => dataRead_answered high kind beats alone serving item committed next quiet moves⟩
    obtain ⟨restore, verify, loan, owed, closed⟩ := calm
    obtain ⟨restore', verify', loan', owed', closed'⟩ := calm'
    obtain ⟨u, moves, pending, frame, here, beside⟩ := dataRead_warns high kind beats alone serving item committed next both
      (both_lanes append other) volume near (both_lanes ⟨restore, verify, loan, owed⟩ ⟨restore', verify', loan', owed'⟩)
      (both_lanes closed closed')
    exact ⟨u, moves, pending, frame, here.state, here.warned, here.due, beside.state, beside.warned, beside.due⟩
  · exact leaves_of_accepted (labelRead_sends kind beats alone serving item committed next volume ▸
      kindEvent_leaves (exec_sendRead t s) high (by rw [kind]; rfl))

end Sys2Proof.Machine
end

section
/-! SUPPORT. What a read job's work on one lane leaves of the locations, of the lane's figures and of the other lane; entry into
FAULT (R92, R103, R107, R156, R165, R173). Settles O22. -/

namespace Sys2Proof.Machine

/-! ## The views of a lane that read jobs work on -/

/-- The figures of the lane's verify job, or of the last one. -/
def Lane.verifyFigures (l : Lane) : Option (Nat × Nat × Nat) :=
  (l.verify <|> l.lastVerify).map (fun j => (j.lost, j.chunks, j.expected))

/-- The figures of the lane's restore, or of the last one. -/
def Lane.restoreFigures (l : Lane) : Option (Nat × Nat × Nat) :=
  (l.restore <|> l.lastRestore).map (fun j => (j.lost, j.current, j.expected))

/-- The lane's state is one in which the volume logic acts on it (R114, R117, R118). -/
def Lane.judged (l : Lane) : Prop := l.state = .append ∨ l.state = .closing ∨ l.state = .waitingMedia

/-- The lane without its run and its queue. -/
def Lane.outside (l : Lane) : Lane := { l with run := Run.none, queue := [] }

/-- The lane is in FAULT without read jobs or a loan. -/
structure Lane.Shut (l : Lane) : Prop where
  state : l.state = .fault
  restore : l.restore = none
  verify : l.verify = none
  lending : l.lending = none
  loan : l.access.loan ≠ .unloading

theorem Lane.Shut.of_outside {l m : Lane} (h : l.Shut) (same : m.outside = l.outside) : m.Shut := by
  have state : m.outside.state = l.outside.state := congrArg Lane.state same
  have restore : m.outside.restore = l.outside.restore := congrArg Lane.restore same
  have verify : m.outside.verify = l.outside.verify := congrArg Lane.verify same
  have lending : m.outside.lending = l.outside.lending := congrArg Lane.lending same
  have access : m.outside.access = l.outside.access := congrArg Lane.access same
  exact ⟨state.trans h.state, restore.trans h.restore, verify.trans h.verify, lending.trans h.lending, fun e =>
    h.loan ((congrArg Access.loan access).symm.trans e)⟩

/-! ## Work of a read job -/

/-- `t` is `s` after work of lane `k`'s read jobs: no occupancy has changed, lane `k` has not entered a state that the volume logic
judges, the figures of its verify job stand, and a calm or a shut lane beside it stays so. -/
structure Part.Works (s t : Part) (k : LaneId) : Prop where
  occ : ∀ p, (t.loc p).occ = (s.loc p).occ
  judged : (t.lane k).judged → (s.lane k).judged
  figures : (t.lane k).verifyFigures = (s.lane k).verifyFigures
  ended : (s.lane k).verify = none → (t.lane k).verify = none ∧ (t.lane k).lastVerify = (s.lane k).lastVerify
  calm : (s.lane k.other).calm = true → (t.lane k.other).calm = true
  shut : (s.lane k.other).Shut → (t.lane k.other).outside = (s.lane k.other).outside

/-- Work of lane `k`'s read jobs that leaves the figures of its restore too. -/
structure Part.WorksOn (s t : Part) (k : LaneId) : Prop extends s.Works t k where
  restored : (t.lane k).restoreFigures = (s.lane k).restoreFigures

theorem Part.Works.trans {s t u : Part} {k : LaneId} (h : s.Works t k) (g : t.Works u k) : s.Works u k where
  occ p := (g.occ p).trans (h.occ p)
  judged := h.judged ∘ g.judged
  figures := g.figures.trans h.figures
  ended none := have first := h.ended none; have second := g.ended first.1; ⟨second.1, second.2.trans first.2⟩
  calm := g.calm ∘ h.calm
  shut shut := (g.shut (shut.of_outside (h.shut shut))).trans (h.shut shut)

theorem Part.WorksOn.trans {s t u : Part} {k : LaneId} (h : s.WorksOn t k) (g : t.WorksOn u k) : s.WorksOn u k :=
  ⟨h.toWorks.trans g.toWorks, g.restored.trans h.restored⟩

/-- A step that changes no lane and no occupancy. -/
theorem worksOn_of_lanes {s t : Part} (k : LaneId) (lanes : ∀ j, t.lane j = s.lane j) (occ : ∀ p, (t.loc p).occ = (s.loc p).occ) :
    s.WorksOn t k := by
  exact ⟨⟨occ, by rw [lanes]; exact id, by rw [lanes], by rw [lanes]; exact fun none => ⟨none, rfl⟩, by rw [lanes]; exact id,
    fun _ => by rw [lanes]⟩, by rw [lanes]⟩

theorem worksOn_refl (s : Part) (k : LaneId) : s.WorksOn s k := worksOn_of_lanes k (fun _ => rfl) (fun _ => rfl)

/-- A step on lane `k` alone that touches neither its read jobs nor, but for leaving it, a state that the volume logic judges. -/
theorem worksOn_setLane {s : Part} {k : LaneId} {l : Lane} (judged : l.judged → (s.lane k).judged)
    (figures : l.verifyFigures = (s.lane k).verifyFigures)
    (ended : (s.lane k).verify = none → l.verify = none ∧ l.lastVerify = (s.lane k).lastVerify)
    (restored : l.restoreFigures = (s.lane k).restoreFigures) : s.WorksOn (s.setLane k l) k where
  occ _ := rfl
  judged := by rwa [lane_setLane_same]
  figures := by rwa [lane_setLane_same]
  ended := by rwa [lane_setLane_same]
  calm := by rw [lane_setLane_other]; exact id
  shut _ := by rw [lane_setLane_other]
  restored := by rwa [lane_setLane_same]

/-- A step on lane `k` alone that leaves its read jobs and its state. -/
theorem worksOn_keeping {s : Part} {k : LaneId} {l : Lane} (state : l.state = (s.lane k).state) (verify : l.verify = (s.lane k).verify)
    (lastVerify : l.lastVerify = (s.lane k).lastVerify) (restore : l.restore = (s.lane k).restore)
    (lastRestore : l.lastRestore = (s.lane k).lastRestore) : s.WorksOn (s.setLane k l) k :=
  worksOn_setLane (by rw [Lane.judged, state]; exact id) (by rw [Lane.verifyFigures, verify, lastVerify]; rfl)
    (fun none => ⟨verify.trans none, lastVerify⟩) (by rw [Lane.restoreFigures, restore, lastRestore]; rfl)

/-- A step on the other lane alone. -/
theorem worksOn_setOther {s : Part} {k : LaneId} {l : Lane} (calm : (s.lane k.other).calm = true → l.calm = true)
    (shut : (s.lane k.other).Shut → l.outside = (s.lane k.other).outside) : s.WorksOn (s.setLane k.other l) k := by
  refine ⟨⟨fun _ => rfl, ?_, ?_, ?_, ?_, ?_⟩, ?_⟩
  · rw [lane_other_setLane]; exact id
  · rw [lane_other_setLane]
  · rw [lane_other_setLane]; exact fun none => ⟨none, rfl⟩
  · rwa [lane_setLane_same]
  · rwa [lane_setLane_same]
  · rw [lane_other_setLane]

/-! ## A calm lane beside the work -/

/-- A lane that leaves what it did for EMPTY, IDLE or UNLOADING has no more to settle than before. -/
theorem calm_aside {l : Lane} (st : LaneState) (pending : Option Order) (lending : Option Lending)
    (aside : st = .empty ∨ st = .idle ∨ st = .unloading) (calm : l.calm = true) :
    ({ l with state := st, pending := pending, lending := lending } : Lane).calm = true := by
  simp only [Lane.calm, Bool.and_eq_true] at calm
  obtain ⟨⟨⟨jobs, loan⟩, -⟩, -⟩ := calm
  have kept : ({ l with state := st, pending := pending, lending := lending } : Lane).jobsCalm = true := jobs
  rcases aside with rfl | rfl | rfl <;> simp [Lane.calm, kept, loan]

/-- A limit that rises leaves a calm lane calm (R117, R124). -/
theorem calm_raised {l : Lane} (n : Nat) (calm : l.calm = true) :
    ({ l with run := { l.run with limit := max l.run.limit n } } : Lane).calm = true := by
  obtain ⟨m, raised⟩ : ∃ m : Lane, { l with run := { l.run with limit := max l.run.limit n } } = m := ⟨_, rfl⟩
  have due : l.headDue = true → m.headDue = true := by
    subst raised
    simp only [Lane.headDue, Bool.and_eq_true]
    refine fun ⟨queue, fits⟩ => ⟨queue, ?_⟩
    revert fits
    split
    · exact id
    · simp only [decide_eq_true_eq]
      omega
    · exact id
  have under : m.eovUnderWay = l.eovUnderWay := raised ▸ rfl
  have jobs : m.jobsCalm = l.jobsCalm := raised ▸ rfl
  have fields : m.access = l.access ∧ m.state = l.state ∧ m.volume = l.volume ∧ m.owedEov = l.owedEov ∧ l.run.limit ≤ m.run.limit :=
    raised ▸ ⟨rfl, rfl, rfl, rfl, Nat.le_max_left _ _⟩
  obtain ⟨access, state, volume, owed, limit⟩ := fields
  rw [raised]
  simp only [Lane.calm, jobs, access, state, volume, owed, under, Bool.and_eq_true] at calm ⊢
  refine ⟨calm.1, ?_⟩
  replace calm := calm.2
  revert calm
  split
  · simp only [decide_eq_true_eq]
    omega
  · simp only [Bool.and_eq_true, Bool.or_eq_true]
    exact fun ⟨free, busy⟩ => ⟨free, busy.imp due id⟩
  · exact id

/-! ## A loan that ends, a job's access given up (R156, R165, R173) -/

/-- The lane rests by its bay record (R86). -/
theorem rest_works (s : Part) (k : LaneId) : s.WorksOn (s.rest k) k := by
  have resting : ∀ l : Lane, l.state = s.restState k → ¬ l.judged := fun l state judged => by
    rw [Lane.judged, state] at judged
    rcases restState_resting s k with e | e <;> simp [e] at judged
  have first : s.WorksOn (s.setLane k { s.lane k with state := s.restState k }) k :=
    worksOn_setLane (fun judged => absurd judged (resting _ rfl)) rfl (fun none => ⟨none, rfl⟩) rfl
  rcases rest_eq s k with same | same <;> rw [same]
  · exact first
  · exact first.trans (worksOn_of_lanes k (fun _ => rfl) (fun _ => rfl))

/-- The loan of the other lane's cartridge ends (R156). -/
theorem endLending_works (s : Part) (k : LaneId) : s.WorksOn (s.endLending k.other) k := by
  unfold Part.endLending
  split
  · next d lending =>
    obtain ⟨t, cleared⟩ : ∃ t, s.modLane k.other (fun l => { l with lending := none }) = t := ⟨_, rfl⟩
    have same : t.setLane k.other { t.lane k.other with state := t.restState k.other }
        = s.setLane k.other { s.lane k.other with state := t.restState k.other, lending := none } := by
      rw [← cleared, Part.modLane, lane_setLane_same, setLane_setLane]
    have first : s.WorksOn (t.setLane k.other { t.lane k.other with state := t.restState k.other }) k := by
      rw [same]
      refine worksOn_setOther (calm_aside _ _ _ ?_) fun shut => ?_
      · rcases restState_resting t k.other with e | e <;> simp [e]
      · rw [shut.lending] at lending; cases lending
    rw [cleared]
    rcases rest_eq t k.other with same | same <;> rw [same]
    · exact first
    · exact first.trans (worksOn_of_lanes k (fun _ => rfl) (fun _ => rfl))
  · exact worksOn_refl s k

theorem orphan_works (s : Part) (k : LaneId) : s.WorksOn (s.orphan k.other) k := by
  unfold Part.orphan
  split
  · next d lending =>
    split
    · exact endLending_works s k
    · exact worksOn_setOther id fun shut => by rw [shut.lending] at lending; cases lending
  · exact worksOn_refl s k

theorem dropAccess_works (s : Part) (k : LaneId) : s.WorksOn (s.dropAccess k) k := by
  obtain ⟨t, dropped⟩ : ∃ t, (s.clearUnpack k).modLane k (fun l => { l with buffer := none, access := Access.none }) = t := ⟨_, rfl⟩
  have first : s.WorksOn t k := by
    rw [← dropped, Part.clearUnpack, Part.modLane, Part.modLane, setLane_setLane, lane_setLane_same]
    exact worksOn_keeping rfl rfl rfl rfl rfl
  unfold Part.dropAccess
  rw [dropped]
  dsimp only
  split
  · exact first.trans (orphan_works t k)
  · exact first

/-! ## Records named (R18, R160 to R165, R171) -/

theorem modRestore_works {s : Part} {k : LaneId} {f : RestoreJob → RestoreJob}
    (kept : ∀ j, (f j).lost = j.lost ∧ (f j).current = j.current ∧ (f j).expected = j.expected) :
    s.WorksOn (s.modRestore k f) k := by
  refine worksOn_setLane id rfl (fun none => ⟨none, rfl⟩) ?_
  cases restore : (s.lane k).restore with
  | none => simp [Lane.restoreFigures, restore]
  | some j => simp [Lane.restoreFigures, restore, kept j]

theorem modVerify_works {s : Part} {k : LaneId} {f : VerifyJob → VerifyJob}
    (kept : ∀ j, (f j).lost = j.lost ∧ (f j).chunks = j.chunks ∧ (f j).expected = j.expected) :
    s.WorksOn (s.modVerify k f) k := by
  refine worksOn_setLane id ?_ (fun none => ⟨by simp [none], rfl⟩) rfl
  cases verify : (s.lane k).verify with
  | none => simp [Lane.verifyFigures, verify]
  | some j => simp [Lane.verifyFigures, verify, kept j]

theorem setSlot_works (s : Part) (k : LaneId) (t : Fin 8) (x : Slot) : s.WorksOn (s.setSlot k t x) k :=
  worksOn_keeping rfl rfl rfl rfl rfl

theorem reportOpen_works (s : Part) (k : LaneId) (record produced : Nat) (r : RecResult) (rewrite : Bool) :
    s.WorksOn (s.reportOpen k record produced r rewrite) k := by
  unfold Part.reportOpen
  split
  · dsimp only
    refine Part.WorksOn.trans ?_ (modRestore_works fun _ => ⟨rfl, rfl, rfl⟩)
    split
    · split <;> exact worksOn_of_lanes k (fun _ => rfl) (fun _ => rfl)
    · exact worksOn_refl s k
  · exact worksOn_refl s k

theorem nameRestore_works (s : Part) (k : LaneId) (r : RecResult) (rewrite : Bool) : s.WorksOn (s.nameRestore k r rewrite) k := by
  unfold Part.nameRestore
  split
  · split
    · exact (reportOpen_works s k _ _ r rewrite).trans (setSlot_works _ k _ _)
    · exact worksOn_refl s k
  · exact worksOn_refl s k

theorem nameVerify_works (s : Part) (k : LaneId) (t : Fin 8) (r : RecResult) : s.WorksOn (s.nameVerify k t r) k := by
  unfold Part.nameVerify
  split
  · refine (modVerify_works fun j => ?_).trans (setSlot_works _ k _ _)
    unfold VerifyJob.count
    split <;> exact ⟨rfl, rfl, rfl⟩
  · exact worksOn_refl s k

/-- Results named for the records in DECODING of several streams. -/
theorem nameAll_works {k : LaneId} (f : Part → Fin 8 × Decoding → RecResult) (xs : List (Fin 8 × Decoding)) (s : Part) :
    s.WorksOn (xs.foldl (fun s x => s.nameVerify k x.1 (f s x)) s) k :=
  List.foldlRecOn (motive := fun t => s.WorksOn t k) xs _ (worksOn_refl s k) fun t works x _ =>
    works.trans (nameVerify_works t k x.1 (f t x))

/-! ## Read jobs over (R165, R173) -/

theorem restoreOver_works (s : Part) (k : LaneId) (r : JobResult) : s.WorksOn (s.restoreOver k r) k := by
  unfold Part.restoreOver
  split
  · exact worksOn_refl s k
  · next j restore =>
    have first : s.WorksOn (s.modLane k fun l => { l with restore := none, lastRestore := some { j with result := r } }) k :=
      worksOn_setLane id rfl (fun none => ⟨none, rfl⟩) (by simp [Lane.restoreFigures, restore])
    dsimp only
    split
    · exact first.trans (worksOn_of_lanes k (fun _ => rfl) (fun _ => rfl))
    · exact (first.trans (dropAccess_works _ k)).trans (worksOn_of_lanes k (fun _ => rfl) (fun _ => rfl))

theorem verifyOver_works (s : Part) (k : LaneId) (r : JobResult) : s.WorksOn (s.verifyOver k r) k := by
  unfold Part.verifyOver
  split
  · exact worksOn_refl s k
  · next j verify =>
    have first : s.WorksOn (s.modLane k fun l => { l with verify := none, lastVerify := some { j with result := r } }) k :=
      worksOn_setLane id (by simp [Lane.verifyFigures, verify]) (fun none => by rw [verify] at none; cases none) rfl
    dsimp only
    split
    · exact first.trans (worksOn_of_lanes k (fun _ => rfl) (fun _ => rfl))
    · exact (first.trans (dropAccess_works _ k)).trans (worksOn_of_lanes k (fun _ => rfl) (fun _ => rfl))

/-- The restore of a lane ends with the lane's jobs: named, counted and over (R165). -/
theorem endJobs_restore {s : Part} {k : LaneId} {r : JobResult} (j : RestoreJob) :
    ∃ t : Part, s.WorksOn t k ∧ s.EndsJobs t k ∧ (t.lane k).restore = none
      ∧ (if j.early && r == .laneFault then s.restoreOver k j.result
          else (if j.phase = .waitingVerify then s else s.nameRestore k .incomplete true).restoreOver k r) = t := by
  refine ⟨_, ?_, ?_, ?_, rfl⟩ <;> split
  · exact restoreOver_works s k _
  · refine Part.WorksOn.trans ?_ (restoreOver_works _ k _)
    split
    · exact worksOn_refl s k
    · exact nameRestore_works s k _ _
  · exact (restoreOver_endsJobs s k _).1
  · refine Part.EndsJobs.trans ?_ (restoreOver_endsJobs _ k _).1
    split
    · exact endsJobs_refl s k
    · exact nameRestore_endsJobs s k _ _
  · exact (restoreOver_endsJobs s k _).2
  · exact (restoreOver_endsJobs _ k _).2

theorem nameVerify_endsJobs (s : Part) (k : LaneId) (t : Fin 8) (r : RecResult) : s.EndsJobs (s.nameVerify k t r) k := by
  unfold Part.nameVerify
  split
  · next d _ =>
    have counted : s.EndsJobs (s.modVerify k fun j => j.count t d.record r) k :=
      endsJobs_setLane rfl id fun none => by simp [none]
    exact counted.trans (endsJobs_setLane rfl id id)
  · exact endsJobs_refl s k

/-- Both jobs of a lane end together (R165, R173): what they leave. -/
theorem endJobs_works (s : Part) (k : LaneId) (r : JobResult) :
    s.WorksOn (s.endJobs k r) k ∧ s.EndsJobs (s.endJobs k r) k ∧ ((s.endJobs k r).lane k).restore = none
      ∧ ((s.endJobs k r).lane k).verify = none := by
  obtain ⟨t, works, ends, none, same⟩ : ∃ t : Part, s.WorksOn t k ∧ s.EndsJobs t k ∧ (t.lane k).restore = none
      ∧ s.endJobs k r = (if r = .laneFault ∧ (t.verifying k).isSome = true then
          (t.decodings k).foldl (fun s (x : Fin 8 × Decoding) => s.nameVerify k x.1 .incomplete) t else t).verifyOver k r := by
    unfold Part.endJobs
    split
    · next j _ =>
      obtain ⟨t, works, ends, none, same⟩ := endJobs_restore (s := s) (k := k) (r := r) j
      exact ⟨t, works, ends, none, by rw [← same]⟩
    · next none => exact ⟨s, worksOn_refl s k, endsJobs_refl s k, none, rfl⟩
  obtain ⟨u, named⟩ : ∃ u : Part, (if r = .laneFault ∧ (t.verifying k).isSome = true then
      (t.decodings k).foldl (fun s (x : Fin 8 × Decoding) => s.nameVerify k x.1 .incomplete) t else t) = u := ⟨_, rfl⟩
  have names : t.WorksOn u k ∧ t.EndsJobs u k := by
    rw [← named]
    split
    · exact ⟨nameAll_works (fun _ _ => .incomplete) _ t, List.foldlRecOn (motive := fun u => t.EndsJobs u k) _ _
        (endsJobs_refl t k) fun u ends x _ => ends.trans (nameVerify_endsJobs u k x.1 _)⟩
    · exact ⟨worksOn_refl t k, endsJobs_refl t k⟩
  obtain ⟨finished, verify⟩ := verifyOver_endsJobs u k r
  rw [same, named]
  exact ⟨(works.trans names.1).trans (verifyOver_works u k r), (ends.trans names.2).trans finished,
    finished.restore (names.2.restore none), verify⟩

/-! ## Entry into FAULT (R107) -/

theorem withdraw_works (s : Part) (k : LaneId) : s.WorksOn (s.withdraw k) k := by
  unfold Part.withdraw
  dsimp only
  refine List.foldlRecOn (motive := fun t => s.WorksOn t k) _ _ (worksOn_of_lanes k (fun _ => rfl) (fun _ => rfl)) fun t works e _ => ?_
  unfold Part.loanDone
  split
  · exact works.trans (endLending_works t k)
  · exact works

/-- Limits that rise leave the read jobs, a calm lane and a shut one (R124). -/
theorem raiseLimits_works (s : Part) (k : LaneId) : s.WorksOn (s.setLimits max) k := by
  have step : ∀ (j : LaneId) (t : Part), s.WorksOn t k → s.WorksOn (if (t.lane j).run.chosen.isSome then
      t.modLane j (fun l => { l with run := { l.run with limit := max l.run.limit (t.limitOf j) } }) else t) k := by
    intro j t works
    split
    · refine works.trans ?_
      obtain rfl | rfl := eq_or_eq_other j k
      · exact worksOn_keeping rfl rfl rfl rfl rfl
      · exact worksOn_setOther (calm_raised _) fun _ => rfl
    · exact works
  exact step .l1 _ (step .l0 s (worksOn_refl s k))

theorem leaveVolume_works (s : Part) (k : LaneId) : s.WorksOn (s.leaveVolume k) k :=
  Part.WorksOn.trans (t := s.modLane k _) (worksOn_keeping rfl rfl rfl rfl rfl) (raiseLimits_works _ k)

theorem setCartridge_occ (s : Part) (label : Label) (c : CartState) (p : Loc) : ((s.setCartridge label c).loc p).occ = (s.loc p).occ := by
  unfold Part.setCartridge
  split
  · next q _ =>
    by_cases same : q = p
    · rw [same, loc_setLoc_same]
    · rw [loc_setLoc_ne _ _ _ _ same]
  · rfl

theorem markChosen_works (s : Part) (k : LaneId) (c : CartState) : s.WorksOn (s.markChosen k c) k := by
  refine worksOn_of_lanes k (fun j => congrArg (fun l => l.get j) (markChosen_views s k c).1) fun p => ?_
  unfold Part.markChosen
  split
  · exact setCartridge_occ s _ c p
  · rfl

theorem interruptVolume_works (s : Part) (k : LaneId) : s.WorksOn (s.interruptVolume k) k := by
  unfold Part.interruptVolume
  dsimp only
  split
  · obtain ⟨lanes, -, -, library⟩ := mirror_views (s.markChosen k .interrupted) k fun e => { e with mirror := .interrupted }
    exact ((markChosen_works s k _).trans (worksOn_of_lanes k (fun j => congrArg (fun l => l.get j) lanes)
      fun p => congrArg (fun l : Library => (l.records[p]).occ) library)).trans (leaveVolume_works _ k)
  · split
    · exact markChosen_works s k _
    · exact worksOn_refl s k

/-- The part with lane `k`'s orders, its return in progress and what it sent taken back (R107, steps 1 to 3). -/
def Part.takenBack (s : Part) (k : LaneId) (code : LaneCode) : Part :=
  (s.requeued k (s.lane k).sent).setLane k { s.lane k with
    code := code, pending := none, owedEov := none, outstanding := none, ret := none, lending := none
    cut := (s.lane k).ret.map (·.bytes.length)
    serving := if (s.lane k).committed then none else (s.lane k).serving
    queue := backOf (s.lane k).sent 0 ++ (s.lane k).queue, sent := [], stale := [] }

/-- Entry into FAULT, step by step (R107). -/
theorem laneFault_eq {s : Part} {k : LaneId} {code : LaneCode} (other : (s.lane k).state ≠ .fault) :
    s.laneFault k code = (((((((if code = .tableFull then (s.takenBack k code).markChosen k .suspect
        else (s.takenBack k code).interruptVolume k).endJobs k .laneFault).modLane k
          fun l => { l with buffer := none, access := Access.none }).withdraw k).leaveWaiters k).modLane k
            fun l => { l with state := .fault }).touch (.lane k)).rise (35 + k.num) := by
  have back : ((((s.releaseServed k).modLane k fun l => { l with
      code := code, pending := none, owedEov := none, outstanding := none, ret := none, lending := none
      cut := l.ret.map (·.bytes.length) }).putBack k 0).modLane k fun l => { l with stale := [] }) = s.takenBack k code := by
    rw [releaseServed_eq, modLane_setLane, putBack_eq, modLane_setLane]
    rfl
  rw [Part.laneFault, if_neg other, ← back]

theorem takenBack_works (s : Part) (k : LaneId) (code : LaneCode) : s.WorksOn (s.takenBack k code) k := by
  have requeued : s.WorksOn (s.requeued k (s.lane k).sent) k := by
    refine worksOn_of_lanes k (fun j => requeued_lane s k j _) fun p => ?_
    refine foldl_view (fun q => (q.loc p).occ) (fun s y => match y.kind with
      | .data b => s.setCopy k b .queued
      | _ => s) (fun s y => ?_) (s.lane k).sent s
    split <;> rfl
  refine requeued.trans (worksOn_keeping ?_ ?_ ?_ ?_ ?_) <;> rw [requeued_lane]

theorem enterFault_works (s : Part) (k : LaneId) :
    s.WorksOn ((((s.leaveWaiters k).modLane k fun l => { l with state := .fault }).touch (.lane k)).rise (35 + k.num)) k := by
  have left : s.WorksOn (s.leaveWaiters k) k := worksOn_of_lanes k (fun _ => rfl) fun _ => rfl
  have fault : (s.leaveWaiters k).WorksOn ((s.leaveWaiters k).modLane k fun l => { l with state := .fault }) k :=
    worksOn_setLane (fun judged => by rcases judged with e | e | e <;> cases e) rfl (fun none => ⟨none, rfl⟩) rfl
  exact (left.trans fault).trans (worksOn_of_lanes k (fun _ => rfl) fun _ => rfl)

/-- Entry into FAULT leaves the figures of the read jobs that it ends, a calm lane and a shut one (R107). -/
theorem laneFault_works (s : Part) (k : LaneId) (code : LaneCode) : s.WorksOn (s.laneFault k code) k := by
  by_cases fault : (s.lane k).state = .fault
  · rw [Part.laneFault, if_pos fault]
    exact worksOn_refl s k
  · obtain ⟨t, volume⟩ : ∃ t, (if code = .tableFull then (s.takenBack k code).markChosen k .suspect
        else (s.takenBack k code).interruptVolume k) = t := ⟨_, rfl⟩
    have first : s.WorksOn t k := by
      rw [← volume]
      split
      · exact (takenBack_works s k code).trans (markChosen_works _ k _)
      · exact (takenBack_works s k code).trans (interruptVolume_works _ k)
    rw [laneFault_eq fault, volume]
    have emptied : (t.endJobs k .laneFault).WorksOn
        ((t.endJobs k .laneFault).modLane k fun l => { l with buffer := none, access := Access.none }) k :=
      worksOn_keeping rfl rfl rfl rfl rfl
    exact (((first.trans (endJobs_works t k _).1).trans emptied).trans (withdraw_works _ k)).trans (enterFault_works _ k)

/-- Lane `m` is lane `l` in FAULT with a code: what was sent has gone back to the front of the queue, no order and no read job is
left (R107). -/
structure Lane.FaultOf (l m : Lane) (code : LaneCode) : Prop extends m.Shut where
  code : m.code = code
  pending : m.pending = none
  outstanding : m.outstanding = none
  sent : m.sent = []
  stale : m.stale = []
  ret : m.ret = none
  cut : m.cut = l.ret.map (·.bytes.length)
  queue : m.queue = backOf l.sent 0 ++ l.queue
  lastFault : m.lastFault = l.lastFault

theorem setLimits_lane (s : Part) (g : Nat → Nat → Nat) (k : LaneId) :
    ∃ r : Run, (s.setLimits g).lane k = { s.lane k with run := r } := by
  have step : ∀ (j : LaneId) (t : Part), (∃ r : Run, t.lane k = { s.lane k with run := r }) →
      ∃ r : Run, (if (t.lane j).run.chosen.isSome then
        t.modLane j (fun l => { l with run := { l.run with limit := g l.run.limit (t.limitOf j) } }) else t).lane k
          = { s.lane k with run := r } := by
    intro j t ⟨r, same⟩
    split
    · obtain rfl | rfl := eq_or_eq_other k j
      · rw [lane_modLane_same, same]
        exact ⟨_, rfl⟩
      · rw [lane_modLane_other, same]
        exact ⟨_, rfl⟩
    · exact ⟨r, same⟩
  exact step .l1 _ (step .l0 s ⟨_, rfl⟩)

theorem leaveVolume_lane (s : Part) (k : LaneId) :
    ∃ r : Run, (s.leaveVolume k).lane k = { s.lane k with volume := none, stale := [], run := r } := by
  obtain ⟨r, same⟩ := setLimits_lane (s.modLane k Lane.leftVolume) max k
  refine ⟨r, same.trans ?_⟩
  rw [lane_modLane_same]
  rfl

theorem interruptVolume_lane {s : Part} {k : LaneId} (stale : (s.lane k).stale = []) :
    ∃ (v : Option Volume) (r : Run), (s.interruptVolume k).lane k = { s.lane k with volume := v, run := r } := by
  have marked : (s.markChosen k .interrupted).lane k = s.lane k := congrArg (fun l => l.get k) (markChosen_views s k _).1
  unfold Part.interruptVolume
  dsimp only
  split
  · obtain ⟨r, left⟩ := leaveVolume_lane ((s.markChosen k .interrupted).mirror k fun e => { e with mirror := .interrupted }) k
    rw [show ((s.markChosen k .interrupted).mirror k fun e => { e with mirror := .interrupted }).lane k = s.lane k from
      (congrArg (fun l => l.get k) (mirror_views _ k _).1).trans marked, ← stale] at left
    exact ⟨none, r, left⟩
  · refine ⟨(s.lane k).volume, (s.lane k).run, ?_⟩
    split
    · exact marked
    · rfl

theorem enterFault_lane (s : Part) (k : LaneId) :
    ((((s.leaveWaiters k).modLane k fun l => { l with state := .fault }).touch (.lane k)).rise (35 + k.num)).lane k
      = { s.lane k with state := .fault } :=
  lane_modLane_same (s.leaveWaiters k) k fun l => { l with state := .fault }

theorem laneFault_lane {s : Part} {k : LaneId} (code : LaneCode) (other : (s.lane k).state ≠ .fault) :
    (s.lane k).FaultOf ((s.laneFault k code).lane k) code := by
  obtain ⟨l, back⟩ : ∃ l, (s.takenBack k code).lane k = l := ⟨_, rfl⟩
  obtain ⟨t, left⟩ : ∃ t, (if code = .tableFull then (s.takenBack k code).markChosen k .suspect
      else (s.takenBack k code).interruptVolume k) = t := ⟨_, rfl⟩
  have volume : ∃ (v : Option Volume) (r : Run), t.lane k = { l with volume := v, run := r } := by
    rw [← left, ← back]
    split
    · exact ⟨_, _, congrArg (fun l => l.get k) (markChosen_views _ k _).1⟩
    · exact interruptVolume_lane (by rw [Part.takenBack, lane_setLane_same])
  obtain ⟨v, r, volume⟩ := volume
  obtain ⟨-, ends, restore, verify⟩ := endJobs_works t k .laneFault
  obtain ⟨e, done⟩ : ∃ e, (t.endJobs k .laneFault).lane k = e := ⟨_, rfl⟩
  rw [done] at restore verify
  have here : (s.laneFault k code).lane k = { e.withoutJobs with
      state := .fault, lastRestore := e.lastRestore, lastVerify := e.lastVerify, unpack := e.unpack } := by
    rw [laneFault_eq other, left, enterFault_lane, withdraw_lane, lane_modLane_same, done]
    simp only [Lane.withoutJobs, restore, verify]
  have same : e.withoutJobs = ({ l with volume := v, run := r } : Lane).withoutJobs :=
    done ▸ ends.lane.trans (congrArg _ volume)
  rw [Part.takenBack, lane_setLane_same] at back
  rw [here, same, ← back]
  exact ⟨⟨rfl, rfl, rfl, rfl, nofun⟩, rfl, rfl, rfl, rfl, rfl, rfl, rfl, rfl, rfl⟩

/-! ## The statement -/

/-- A lane that enters FAULT beside a calm one: the next state's lane (R92, R103, R107). -/
theorem settle_faulted (old s : Part) (again : Bool) {k : LaneId} (code : LaneCode) (other : (s.lane k).state ≠ .fault)
    (calm : (s.lane k.other).calm = true) : (s.lane k).FaultOf ((settle old (s.laneFault k code) again).lane k) code := by
  have faulted := laneFault_lane code other
  have here : ((s.laneFault k code).lane k).calm = true :=
    calm_of_no_jobs faulted.restore faulted.verify faulted.loan (.inr faulted.state)
  have first := follow_lane (.inl faulted.state) .l0
  rw [settle_calm old again (both_lanes here ((laneFault_works s k code).calm calm)),
    follow_lane (.inl (by rw [first]; exact faulted.state)), first]
  exact faulted

/-- A timer's event that puts a lane in FAULT (R92, R103). -/
theorem timer_faults {s : State} {k : LaneId} {c : Instr} {f : Part → Part} (code : LaneCode) (high : s.pins.resetLow = false)
    (quiet : s.quiet = true) (other : (s.lane k).state ≠ .fault) (named : exec c s = laneEvent s f)
    (effect : f s.toPart = s.laneFault k code) :
    ∃ u : State, exec c s = .next u ∧ u.pending = s.pending ∧ u.frame = s.frame ∧ (s.lane k).FaultOf (u.lane k) code := by
  have calms : ∀ j, (s.lane j).calm = true := by
    simp only [Part.quiet, Bool.and_eq_true] at quiet
    obtain ⟨⟨⟨zero, one⟩, -⟩, -⟩ := quiet
    exact both_lanes (k := .l0) zero one
  refine ⟨_, named.trans (event_next s _ high), rfl, ?_, ?_⟩
  · rw [report_frame, effect]
    exact frame_of_still ((settle_still _ _ _).trans (laneFault_still _ _ _))
  · rw [report_lane, effect]
    exact settle_faulted s.toPart s.toPart false code other (calms k.other)

/-- Settles O22: `timer_faults` for both timers. -/
theorem laneTimersFault : Obligations.LaneTimersFault := by
  intro s k high quiet other
  refine ⟨fun e rest sent due => ?_, fun o tm out runs due => ?_⟩
  · have effect : s.echoTimer k = s.laneFault k .echoTimeout := by
      simp only [Part.echoTimer, sent]
      exact if_pos (decide_eq_true due)
    obtain ⟨u, next, pending, frame, f⟩ := timer_faults (c := .echoTimer k) .echoTimeout high quiet other rfl effect
    exact ⟨u, next, pending, frame, f.state, f.code, f.pending, f.outstanding, f.sent, f.stale, f.ret, f.cut, f.queue⟩
  · have effect : s.returnTimer k = s.laneFault k .returnTimeout := by
      simp only [Part.returnTimer, out]
      exact if_pos (ranOut_due runs due)
    obtain ⟨u, next, pending, frame, f⟩ := timer_faults (c := .returnTimer k) .returnTimeout high quiet other rfl effect
    exact ⟨u, next, pending, frame, f.state, f.code, f.pending, f.outstanding, f.sent, f.stale, f.ret, f.cut, f.queue⟩

end Sys2Proof.Machine
end

section
/-! SUPPORT. Return writes: a return begun or refused, a READ of a restore, of a verify job or for identity judged
(R94 to R96, R157, R159, R160, R170, R172). Settles O20. -/

namespace Sys2Proof.Machine

/-! ## Return writes (R94, R95) -/

/-- A transaction treated as a return write is a write. -/
theorem write_of_ret {s : Part} {t : Txn} {k : LaneId} {off : Nat} (kind : s.classify t = .ret k off) : t.write = true := by
  cases write : t.write with
  | true => rfl
  | false =>
    simp only [Part.classify, write] at kind
    split at kind
    · cases kind
    · split at kind
      · split at kind
        · split at kind <;> cases kind
        · cases kind
      all_goals simp_all

theorem clientTransaction_ret {s : Part} {t : Txn} {k : LaneId} {off : Nat} (kind : s.classify t = .ret k off) :
    s.clientTransaction t = (s.accept t).2.returnWrite k s.bus.nextId off (enabledBytes t) := by
  unfold Part.clientTransaction
  rw [kind]
  rfl

/-- The first bytes of a return, short of a header (R94). -/
theorem returnWrite_begins {s : Part} {k : LaneId} (id : Nat) {bytes : List Byte} (short : bytes.length < 32) :
    s.returnWrite k id 0 bytes = ((s.modLane k fun l => { l with ret := none, cut := none }).okay id []).modLane k fun l => { l with
      ret := some ⟨bytes, Fold.start.addAll bytes, Fold.start⟩ } := by
  have added : Return.add ⟨[], Fold.start, Fold.start⟩ bytes = ⟨bytes, Fold.start.addAll bytes, Fold.start⟩ := by
    simp [Return.add, List.take_of_length_le (Nat.le_of_lt short), List.drop_eq_nil_of_le (Nat.le_of_lt short), Fold.addAll]
  simp only [Part.returnWrite, if_true, added, if_pos short]

/-- The part with an unexpected return on lane `k` discarded and counted (R95). -/
def Part.counted (s : Part) (k : LaneId) : Part :=
  s.setLane k { s.lane k with ret := none, cut := none, unexpected := ((s.lane k).unexpected + 1) % 2 ^ 32 }

/-- A return write that does not go on from the return in progress (R95), also where entry into FAULT cut one off (R108). -/
theorem returnWrite_away {s : Part} {k : LaneId} (id : Nat) {off : Nat} (bytes : List Byte) (later : off ≠ 0)
    (away : ∀ r, (s.lane k).ret = some r → r.bytes.length ≠ off) :
    s.returnWrite k id off bytes = if (s.lane k).cut = some off then s.unexpectedReturn k id else s.refuse id .sequence (.ret k) := by
  simp only [Part.returnWrite, if_neg later]
  cases ret : (s.lane k).ret with
  | none => rfl
  | some r => simp only [if_neg (away r ret)]

/-- A return whose header the lane does not expect (R95). -/
theorem returnWrite_unexpected {s : Part} {k : LaneId} (id : Nat) {bytes : List Byte} (long : 32 ≤ bytes.length)
    (unexpected : ∀ kind, returnKind (bytes.take 32) = some kind → (s.lane k).expects (bytes.take 32) kind = false) :
    s.returnWrite k id 0 bytes = (s.modLane k fun l => { l with ret := none, cut := none }).unexpectedReturn k id := by
  have bytes' : (Return.add ⟨[], Fold.start, Fold.start⟩ bytes).bytes = bytes := rfl
  have expects : ∀ kind, ({ s.lane k with ret := none, cut := none } : Lane).expects (bytes.take 32) kind
      = (s.lane k).expects (bytes.take 32) kind := fun kind => by cases kind <;> rfl
  simp only [Part.returnWrite, if_true, bytes', if_neg (Nat.not_lt.mpr long), lane_modLane_same, expects]
  cases kind : returnKind (bytes.take 32) with
  | none => rfl
  | some x => simp only [unexpected x kind, decide_eq_false (by decide : ¬ 32 ≤ 0), Bool.or_self, Bool.false_eq_true, if_false]

theorem unexpectedReturn_eq {s : Part} {t : Txn} (k : LaneId) (write : t.write = true) (alone : s.bus.waiting = []) :
    (s.accept t).2.unexpectedReturn k s.bus.nextId
      = ((s.counted k).recorded .order (.ret k) t).acceptedAs t (.ready ⟨t.tag, false, some .order, []⟩) none := by
  rw [Part.unexpectedReturn, accept_refuse s t (fresh_of_alone s alone), faultOf, if_pos write]
  cases k <;> rfl

section Refused
variable {s : Part} {t : Txn} {k : LaneId} {off : Nat} (kind : s.classify t = .ret k off) (alone : s.bus.waiting = [])
include kind alone

/-- A return write away from the return in progress is refused with SEQUENCE, with ORDER where FAULT cut one off (R95, R108). -/
theorem ret_away (later : off ≠ 0) (away : ∀ r, (s.lane k).ret = some r → r.bytes.length ≠ off) :
    s.clientTransaction t = if (s.lane k).cut = some off
      then ((s.counted k).recorded .order (.ret k) t).acceptedAs t (.ready ⟨t.tag, false, some .order, []⟩) none
      else (s.recorded .sequence (.ret k) t).acceptedAs t (.ready ⟨t.tag, false, some .sequence, []⟩) none := by
  have refused := accept_refuse s t (fresh_of_alone s alone) .sequence (.ret k)
  rw [faultOf, if_pos (write_of_ret kind)] at refused
  rw [clientTransaction_ret kind, returnWrite_away (s := (s.accept t).2) _ _ later away,
    unexpectedReturn_eq k (write_of_ret kind) alone, refused]
  rfl

/-- A return that the lane does not expect is refused with ORDER and counted (R95). -/
theorem ret_unexpected (first : off = 0) (long : 32 ≤ (enabledBytes t).length) (unexpected : ∀ x,
      returnKind ((enabledBytes t).take 32) = some x → (s.lane k).expects ((enabledBytes t).take 32) x = false) :
    s.clientTransaction t
      = ((s.counted k).recorded .order (.ret k) t).acceptedAs t (.ready ⟨t.tag, false, some .order, []⟩) none := by
  have counts := unexpectedReturn_eq (s := s.modLane k fun l => { l with ret := none, cut := none }) k (write_of_ret kind) alone
  have same : (s.modLane k fun l => { l with ret := none, cut := none }).counted k = s.counted k := by
    rw [Part.counted, Part.modLane, setLane_setLane, lane_setLane_same]
    rfl
  rw [same] at counts
  rw [clientTransaction_ret kind, first, returnWrite_unexpected (s := (s.accept t).2) _ long unexpected]
  exact counts

end Refused

/-- A change of what a lane keeps of returns leaves the part as quiet as it was. -/
theorem quiet_counted (s : Part) (k : LaneId) : (s.counted k).quiet = s.quiet := quiet_setLane rfl rfl

/-- A return write refused, as an event (R33, R95). -/
theorem returnWrite_refused {s : State} {t : Txn} {k : LaneId} {off : Nat} (high : s.pins.resetLow = false)
    (kind : s.classify t = .ret k off) {x : Part} {r : Reason} (path : x.path = s.path) (bus : x.bus = s.bus) (unit : x.unit = s.unit)
    (alone : s.bus.waiting = []) (quiet : x.quiet = true)
    (effect : s.clientTransaction t = (x.recorded r (.ret k) t).acceptedAs t (.ready ⟨t.tag, false, some r, []⟩) none) :
    ∃ u : State, exec (.returnWrite t) s = .next u ∧ u.pending = s.pending
      ∧ u.blocks = ({ x with path := { s.path with
          refusals := (s.path.refusals + 1) % 2 ^ 32
          lastRefusal := some ⟨r, .ret k, t.tag, t.addr⟩ } } : Part).blocks
      ∧ u.unit.latched = s.unit.latched
      ∧ u.bus.answered = s.bus.answered ++ [⟨t.tag, false, some r, []⟩] := by
  obtain ⟨u, next, pending, blocks, latched, -, answered⟩ := kindEvent_answers (exec_returnWrite t s) high (by rw [kind]; rfl)
    effect (by rw [recorded_bus, bus]; exact alone) quiet
  refine ⟨u, next, pending, ?_, ?_, ?_⟩
  · rw [blocks, Part.recorded, path]
    rfl
  · rw [latched, Part.recorded, unit]
  · rw [answered, recorded_bus, bus]

/-! ## A READ completed (R94, R96) -/

/-- A READ as it is handed over agrees with its bytes (R96). -/
structure ReadBlock.Of (b : ReadBlock) (block : List Byte) : Prop where
  marker : b.marker = true
  kind : b.kind = field block 4 1
  label : b.label = labelAt block 8
  seq : b.seq = field block 16 4
  rewrites : b.rewrites = field block 6 1
  used : b.used = field block 24 2
  folds : b.folds = true ↔ foldCheck (block.take 32) = field block 32756 4 ∧ foldCheck (slice block 32 32720) = field block 32752 4
  tail : b.tail = true ↔ slice block 32760 4 = [0x4B, 0x44, 0x53, 0x45]

theorem readBlock_of {r : Return} {block : List Byte} (marker : block.take 4 = [0x4B, 0x44, 0x53, 0x42])
    (header : r.headerFold.value = foldCheck (block.take 32)) (payload : r.payloadFold.value = foldCheck (slice block 32 32720)) :
    (readBlock block r.headerFold r.payloadFold).Of block where
  marker := beq_iff_eq.mpr marker
  kind := rfl
  label := rfl
  seq := rfl
  rewrites := rfl
  used := rfl
  folds := by
    simp only [readBlock, header, payload, Bool.and_eq_true, beq_iff_eq]
    exact ⟨fun ⟨p, h⟩ => ⟨h.symm, p.symm⟩, fun ⟨h, p⟩ => ⟨p.symm, h.symm⟩⟩
  tail := beq_iff_eq

/-- Lane `l` of `s` with a READ of the bytes `block` in its return buffer: the return timer starts again (R92, R96). -/
def Part.buffered (s : Part) (l : Lane) (o : Outstanding) (block : List Byte) : Lane :=
  { l with ret := none, outstanding := some { o with timer := some ⟨s.now, 60000000⟩ }, buffer := some block }

/-- The write that completes a block return is answered OKAY, and the block is acted on (R94). -/
theorem block_completes {s : Part} {t : Txn} {k : LaneId} {block : List Byte} (h : s.completesReturn t k block) :
    ∃ r : Return, r.bytes = block ∧ r.headerFold.value = foldCheck (block.take 32)
      ∧ r.payloadFold.value = foldCheck (slice block 32 32720)
      ∧ s.clientTransaction t = (s.returned k t).returnDone k r .block := by
  obtain ⟨-, alone, length, marker, r, ret, long, kind, rfl, -, header, payload⟩ := h
  obtain ⟨headers, payloads⟩ := add_folds (enabledBytes t) long header payload
  refine ⟨r.add (enabledBytes t), rfl, headers, payloads, ?_⟩
  have goesOn : r.bytes.length ≠ 0 := by omega
  have bytes : (r.add (enabledBytes t)).bytes = r.bytes ++ enabledBytes t := rfl
  have isBlock : returnKind ((r.bytes ++ enabledBytes t).take 32) = some .block := returnKind_block (by rwa [List.take_take])
  rw [clientTransaction_ret kind]
  simp only [Part.returnWrite, if_neg goesOn, show (s.accept t).2.lane k = s.lane k from rfl, ret, if_true, bytes, length, isBlock,
    long, decide_true, Bool.true_or, ReturnKind.size, Config.blockBytes, Nat.lt_irrefl, if_false,
    accept_okay s t (fresh_of_alone s alone) []]
  rfl

/-- The write that completes a READ of the SEEK outstanding is answered OKAY, and the block is handed to the job (R94, R96). -/
theorem read_completes {s : Part} {t : Txn} {k : LaneId} {block : List Byte} {o : Outstanding} (h : s.completesReturn t k block)
    (out : (s.lane k).outstanding = some o) (seek : o.seek ≠ none) :
    ∃ b : ReadBlock, b.Of block
      ∧ s.clientTransaction t = ((s.okayed t).setLane k (s.buffered (s.lane k) o block)).readDone k b block := by
  obtain ⟨r, rfl, header, payload, done⟩ := block_completes h
  obtain ⟨-, -, -, marker, -⟩ := h
  refine ⟨_, readBlock_of marker header payload, done.trans ?_⟩
  have seeking : ((s.returned k t).lane k).seeking = true := by
    rw [Part.returned, lane_setLane_same]
    simp only [Lane.seeking, out]
    exact Option.isSome_iff_ne_none.mpr seek
  simp only [Part.returnDone, seeking, if_true]
  congr 1
  rw [Part.returned, modLane_setLane]
  simp only [out]
  rfl

/-- The event of a completed READ leaves what the job leaves of the lane. -/
theorem read_leaves {s : State} {t : Txn} {k : LaneId} {block : List Byte} {o : Outstanding} (completes : s.completesReturn t k block)
    (out : (s.lane k).outstanding = some o) (seek : o.seek ≠ none) :
    ∃ b : ReadBlock, b.Of block ∧ ∀ l : Lane,
      ((s.okayed t).setLane k (s.buffered (s.lane k) o block)).readDone k b block = (s.okayed t).setLane k l →
        Leaves (.returnWrite t) s (s.setLane k l) := by
  obtain ⟨b, reads, judged⟩ := read_completes completes out seek
  obtain ⟨high, -, -, -, _, -, -, kind, -⟩ := completes
  have event := returnWrite_leaves high kind
  rw [judged] at event
  exact ⟨b, reads, fun l same => leaves_of_accepted (a := ⟨t.tag, true, none, []⟩) (by rw [same] at event; exact event)⟩

/-! ## The acceptance rule (R159, R170) -/

section Judge
variable {b : ReadBlock} {runs : List (Nat × Nat)} {expected last kind : Nat}

theorem judge_skipped (skipped : last < b.seq ∨ b.rewrites < runsWith runs b.seq ∨ b.seq < expected) :
    b.judge runs expected last kind = .skipped := by
  unfold ReadBlock.judge
  split
  · rfl
  · next inside =>
    simp only [Bool.or_eq_true, decide_eq_true_eq, not_or] at inside
    rcases skipped with after | superseded | before
    · exact absurd after inside.2
    · rw [if_pos superseded]
    · rw [if_pos before, ite_self]

variable (marker : b.marker = true) (kept : ¬ (last < b.seq ∨ b.rewrites < runsWith runs b.seq ∨ b.seq < expected))
include marker kept

theorem judge_kept : b.judge runs expected last kind
    = if runsWith runs b.seq < b.rewrites || b.kind != kind || !b.folds || !b.tail then .damaged b.seq else .accepted b.seq := by
  obtain ⟨inside, current, expects⟩ := not_or.mp kept |>.imp id not_or.mp
  simp only [ReadBlock.judge, marker, Bool.not_true, Bool.false_or, decide_eq_true_eq, if_neg inside, if_neg current, if_neg expects]

/-- A READ with the rewrite count, the kind, the folds and the trailer called for is accepted, any other is damaged. -/
theorem judge_verdict : b.judge runs expected last kind
    = if b.rewrites = runsWith runs b.seq ∧ b.kind = kind ∧ b.folds = true ∧ b.tail = true then .accepted b.seq else .damaged b.seq := by
  have least : runsWith runs b.seq ≤ b.rewrites := Nat.le_of_not_lt fun less => kept (.inr (.inl less))
  rw [judge_kept marker kept]
  by_cases good : b.rewrites = runsWith runs b.seq ∧ b.kind = kind ∧ b.folds = true ∧ b.tail = true
  · obtain ⟨rewrites, same, folds, tail⟩ := good
    simp [rewrites, same, folds, tail]
  · rw [if_neg good, if_pos]
    simp only [Bool.or_eq_true, decide_eq_true_eq, bne_iff_ne, Bool.not_eq_true', or_assoc]
    by_contra none
    simp only [not_or, ne_eq, not_not, Bool.not_eq_false] at none
    obtain ⟨most, same, folds, tail⟩ := none
    exact good ⟨by omega, same, folds, tail⟩

end Judge

/-! ## A READ of a restore's chunk (R159, R160) -/

/-- Sequences LOST, whether there are any or not (R159). -/
theorem RestoreJob.lose_eq (j : RestoreJob) (a b : Nat) :
    j.lose a b = { j with lost := j.lost + (b - a), gap := j.gap || decide (a < b) } := by
  unfold RestoreJob.lose
  split
  · next less => simp [less]
  · next most => simp [most, Nat.sub_eq_zero_of_le (Nat.le_of_not_lt most)]

theorem freeBuffer_setLane (p : Part) (k : LaneId) (l : Lane) :
    (p.setLane k l).freeBuffer k = p.setLane k { l with buffer := none, access := { l.access with walk := none } } :=
  modLane_setLane p k l _

theorem modRestore_setLane (p : Part) (k : LaneId) (l : Lane) (f : RestoreJob → RestoreJob) :
    (p.setLane k l).modRestore k f = p.setLane k { l with restore := l.restore.map f } := modLane_setLane p k l _

theorem modVerify_setLane (p : Part) (k : LaneId) (l : Lane) (f : VerifyJob → VerifyJob) :
    (p.setLane k l).modVerify k f = p.setLane k { l with verify := l.verify.map f } := modLane_setLane p k l _

theorem beginWalk_setLane (p : Part) (k : LaneId) (l : Lane) (used : Nat) :
    (p.setLane k l).beginWalk k used = p.setLane k { l with
      buffer := if used = 0 then none else l.buffer
      access := { l.access with walk := if used = 0 then none else some ⟨0, used, none, none⟩ } } := by
  unfold Part.beginWalk
  split
  · exact freeBuffer_setLane p k l
  · exact modLane_setLane p k l _

/-- Lane `l` after a READ of a chunk of its restore `j` is judged, the block's used length given (R159, R160). -/
def RestoreJob.readBy (j : RestoreJob) (l : Lane) (used : Nat) : Judgement → Lane
  | .skipped => { l with restore := some j, buffer := none, access := { l.access with walk := none } }
  | .damaged q => { l with
      restore := some { j with lost := j.lost + (q - j.expected), damaged := j.damaged + 1, gap := true, expected := q + 1 }
      buffer := none, access := { l.access with walk := none } }
  | .accepted q => { l with
      restore := some { j with lost := j.lost + (q - j.expected), gap := j.gap || decide (j.expected < q), expected := q + 1 }
      buffer := if used = 0 then none else l.buffer
      access := { l.access with walk := if used = 0 then none else some ⟨0, used, none, none⟩ } }

/-- A READ of a restore's chunk, by its judgement (R159, R160). -/
theorem readDone_restore {p : Part} {k : LaneId} {l : Lane} (b : ReadBlock) {j : RestoreJob} {v : VolRecord} {a last : Nat}
    (block : List Byte) (restore : l.restore = some j) (reading : j.phase = .reading) (wants : j.cursor ≤ j.effLast)
    (chunk : l.access.chunk = some (a, last)) (volume : j.volumes[j.current]? = some v) :
    (p.setLane k l).readDone k b block = p.setLane k (j.readBy l b.used (b.judge v.runs j.expected last 2)) := by
  have restoring : (p.setLane k l).restoring k = some j := by
    simp only [Part.restoring, lane_setLane_same, restore, reading, reduceCtorEq, if_false]
  have goesOn : (j.satisfied || RestorePhase.reading == .ending) = false := by
    simp [RestoreJob.satisfied, Nat.not_lt.mpr wants]
  have runs : ((j.volumes[j.current]?).map (·.runs)).getD [] = v.runs := by rw [volume]; rfl
  have stop : (((p.setLane k l).lane k).access.chunk.map (·.2)).getD 0 = last := by rw [lane_setLane_same, chunk]; rfl
  simp only [Part.readDone, restoring, reading, reduceCtorEq, if_false, Part.readRestore, goesOn, Bool.false_eq_true, runs, stop]
  cases b.judge v.runs j.expected last 2 with
  | skipped => rw [freeBuffer_setLane, RestoreJob.readBy, restore]
  | damaged q =>
    simp only [modRestore_setLane, freeBuffer_setLane, restore, Option.map_some, RestoreJob.lose_eq, reading, RestoreJob.readBy]
  | accepted q =>
    simp only [modRestore_setLane, beginWalk_setLane, restore, Option.map_some, RestoreJob.lose_eq, reading, RestoreJob.readBy]

/-- A READ of a restore's chunk as an event (R96, R159, R160). -/
theorem restoreRead_leaves {s : State} {t : Txn} {k : LaneId} {block : List Byte} {o : Outstanding} {j : RestoreJob} {v : VolRecord}
    {a last : Nat} (completes : s.completesReturn t k block) (out : (s.lane k).outstanding = some o) (seek : o.seek ≠ none)
    (restore : (s.lane k).restore = some j) (reading : j.phase = .reading) (wants : j.cursor ≤ j.effLast)
    (chunk : (s.lane k).access.chunk = some (a, last)) (volume : j.volumes[j.current]? = some v) :
    ∃ b : ReadBlock, b.Of block ∧ Leaves (.returnWrite t) s (s.setLane k
      (j.readBy (s.buffered (s.lane k) o block) b.used (b.judge v.runs j.expected last 2))) := by
  obtain ⟨b, reads, leaves⟩ := read_leaves completes out seek
  exact ⟨b, reads, leaves _ (readDone_restore b block restore reading wants chunk volume)⟩

/-- What the fields of a READ say of its judgement (R159, R170). -/
theorem judge_reads {b : ReadBlock} {block : List Byte} (reads : b.Of block) (runs : List (Nat × Nat)) (expected last kind : Nat) :
    (last < field block 16 4 ∨ field block 6 1 < runsWith runs (field block 16 4) ∨ field block 16 4 < expected →
      b.judge runs expected last kind = .skipped)
    ∧ (¬ (last < field block 16 4 ∨ field block 6 1 < runsWith runs (field block 16 4) ∨ field block 16 4 < expected) →
      b.judge runs expected last kind = if field block 6 1 = runsWith runs (field block 16 4) ∧ field block 4 1 = kind
          ∧ foldCheck (block.take 32) = field block 32756 4 ∧ foldCheck (slice block 32 32720) = field block 32752 4
          ∧ slice block 32760 4 = [0x4B, 0x44, 0x53, 0x45]
        then .accepted (field block 16 4) else .damaged (field block 16 4)) := by
  rw [← reads.seq, ← reads.rewrites, ← reads.kind]
  refine ⟨judge_skipped, fun kept => ?_⟩
  rw [judge_verdict reads.marker kept]
  simp only [reads.folds, reads.tail, and_assoc]

/-! ## A READ of a verify job's chunk (R170, R172) -/

/-- How many of consecutive numbers lie in an interval. -/
theorem countP_range' (a m c v : Nat) : (List.range' a m).countP (fun q => decide (c ≤ q ∧ q < v)) = min (a + m) v - max a c := by
  induction m with
  | zero => simp
  | succ m ih =>
    rw [List.range'_concat, List.countP_append, ih]
    simp only [List.countP_cons, List.countP_nil, decide_eq_true_eq]
    split <;> omega

/-- The sequences LOST are those that the rule does not call absent (R170). -/
theorem VerifyJob.lost_count (j : VerifyJob) (a b : Nat) :
    ((List.range' a (b - a)).filter (fun q =>
      !(j.eovVerified && decide (j.absentFrom ≠ 0 ∧ j.absentFrom ≤ q ∧ q < j.verified)))).length = (b - a) - j.absent a b := by
  have parts := List.length_eq_length_filter_add (l := List.range' a (b - a))
    (fun q => j.eovVerified && decide (j.absentFrom ≠ 0 ∧ j.absentFrom ≤ q ∧ q < j.verified))
  have absent : ((List.range' a (b - a)).filter (fun q =>
      j.eovVerified && decide (j.absentFrom ≠ 0 ∧ j.absentFrom ≤ q ∧ q < j.verified))).length = j.absent a b := by
    rw [← List.countP_eq_length_filter, VerifyJob.absent]
    cases known : j.eovVerified with
    | false => simp
    | true =>
      by_cases from' : j.absentFrom = 0
      · simp [from']
      · have counted := countP_range' a (b - a) j.absentFrom j.verified
        simp only [Bool.true_and, ne_eq, from', not_false_eq_true, true_and, and_self, if_true, counted]
        omega
  rw [List.length_range'] at parts
  omega

theorem VerifyJob.lose_eq {j : VerifyJob} {a b n : Nat} (count : (b - a) - j.absent a b = n) :
    j.lose a b = { j with lost := j.lost + n, gaps := if n = 0 then j.gaps else Vector.replicate 8 true } := by
  unfold VerifyJob.lose
  simp only [count]
  split
  · next some => rw [if_neg (Nat.pos_iff_ne_zero.mp some)]; rfl
  · next none =>
    obtain rfl : n = 0 := Nat.eq_zero_of_not_pos none
    rfl

/-- The verify job with `n` sequences LOST before the one judged (R170). -/
def VerifyJob.lostTo (j : VerifyJob) (n q : Nat) : VerifyJob :=
  { j with lost := j.lost + n, gaps := if n = 0 then j.gaps else Vector.replicate 8 true, expected := q + 1 }

/-- A READ of a verify job's chunk reaches the job (R96). -/
theorem readDone_verify {p : Part} {k : LaneId} {l : Lane} (b : ReadBlock) {j : VerifyJob} (block : List Byte)
    (restore : l.restore = none) (verify : l.verify = some j) (reading : j.phase = .reading) :
    (p.setLane k l).readDone k b block = (p.setLane k l).readVerify k j b block := by
  have restoring : (p.setLane k l).restoring k = none := by simp only [Part.restoring, lane_setLane_same, restore]
  have verifying : (p.setLane k l).verifying k = some j := by
    simp only [Part.verifying, lane_setLane_same, verify, reading, reduceCtorEq, if_false]
  simp only [Part.readDone, restoring, verifying, reading, reduceCtorEq, if_false]

section VerifyRead
variable {p : Part} {k : LaneId} {l : Lane} {b : ReadBlock} {j : VerifyJob} {block : List Byte} {a last : Nat}
  (verify : l.verify = some j) (chunk : l.access.chunk = some (a, last))
include verify chunk

theorem readVerify_skipped (verdict : b.judge j.runs j.expected last (j.kindAt b.seq) = .skipped) :
    (p.setLane k l).readVerify k j b block = p.setLane k { l with
      verify := some { j with skipped := j.skipped + 1 }, buffer := none, access := { l.access with walk := none } } := by
  simp only [Part.readVerify, lane_setLane_same, chunk, Option.map_some, Option.getD_some, verdict, modVerify_setLane,
    freeBuffer_setLane, verify]

variable {n q : Nat} (count : (q - j.expected) - j.absent j.expected q = n)
include count

theorem readVerify_damaged (verdict : b.judge j.runs j.expected last (j.kindAt b.seq) = .damaged q) :
    (p.setLane k l).readVerify k j b block = p.setLane k { l with
      verify := some { j.lostTo n q with damaged := j.damaged + 1, gaps := Vector.replicate 8 true }
      buffer := none, access := { l.access with walk := none } } := by
  simp only [Part.readVerify, lane_setLane_same, chunk, Option.map_some, Option.getD_some, verdict, modVerify_setLane,
    freeBuffer_setLane, verify, VerifyJob.lose_eq count]
  rfl

theorem readVerify_accepted (verdict : b.judge j.runs j.expected last (j.kindAt b.seq) = .accepted q) :
    (p.setLane k l).readVerify k j b block =
      let x := p.setLane k { l with verify := some { j.lostTo n q with accepted := j.accepted + 1 } }
      match j.kindAt q with
      | 1 => x.freeBuffer k
      | 3 => (x.checkEov k (payloadOf block)).freeBuffer k
      | _ => x.beginWalk k b.used := by
  simp only [Part.readVerify, lane_setLane_same, chunk, Option.map_some, Option.getD_some, verdict, modVerify_setLane, verify,
    VerifyJob.lose_eq count]
  rfl

end VerifyRead

/-! ## The EOV's form (R172) -/

/-- An EOV block's streams, as many as its first payload byte says. -/
def eovStreams (block : List Byte) : List Nat :=
  (List.range (byteAt block 32).toNat).map (fun i => (byteAt block (33 + 9 * i)).toNat)

/-- The EOV is well formed: up to 8 streams, all of them streams, none twice (R172). -/
def eovFormed (block : List Byte) : Prop :=
  (eovStreams block).length ≤ 8 ∧ (∀ x ∈ eovStreams block, x < 8) ∧ (eovStreams block).Nodup

theorem byteAt_payloadOf {block : List Byte} {i : Nat} (inside : i < 32720) : byteAt (payloadOf block) i = byteAt block (32 + i) := by
  simp [byteAt, payloadOf, slice, Config.payloadBytes, inside, List.getElem?_drop]

/-- Of numbers below 8 the stream arguments are all streams. -/
theorem filterMap_streams (f : Nat → Byte) (g : Nat → Nat × Nat) (is : List Nat) (small : ∀ i ∈ is, (f i).toNat < 8) :
    ((is.filterMap fun i => (streamArg (f i)).map fun t => (t, g i)).map (·.1)).map (·.val) = is.map (fun i => (f i).toNat) := by
  induction is with
  | nil => rfl
  | cons i is ih =>
    have here : (f i).toNat < 8 := small i (by simp)
    have arg : streamArg (f i) = some ⟨(f i).toNat, here⟩ := dif_pos here
    simp only [List.filterMap_cons, arg, Option.map_some, List.map_cons, ih fun j m => small j (by simp [m])]

theorem eovPayload_formed {block : List Byte} : (eovPayload (payloadOf block)).isSome = true ↔ eovFormed block := by
  have number : byteAt (payloadOf block) 0 = byteAt block 32 := byteAt_payloadOf (by decide)
  have streams : ∀ i, i < 9 → byteAt (payloadOf block) (1 + 9 * i) = byteAt block (33 + 9 * i) := fun i few => by
    rw [byteAt_payloadOf (by omega)]
    congr 1
    omega
  obtain ⟨n, count⟩ : ∃ n, (byteAt block 32).toNat = n := ⟨_, rfl⟩
  have lengths : (eovStreams block).length = n := by simp [eovStreams, count]
  unfold eovPayload
  dsimp only
  rw [number, count]
  by_cases many : 8 < n
  · rw [if_pos many]
    simp only [Option.isSome_none, Bool.false_eq_true, false_iff]
    exact fun formed => absurd formed.1 (by omega)
  · rw [if_neg many]
    obtain ⟨g, rest⟩ : ∃ g : Nat → Nat × Nat, g = fun i =>
      (field (payloadOf block) (2 + 9 * i) 4, field (payloadOf block) (6 + 9 * i) 4) := ⟨_, rfl⟩
    have entries : (List.range n).filterMap (fun i => (streamArg (byteAt (payloadOf block) (1 + 9 * i))).map fun t =>
        (t, field (payloadOf block) (2 + 9 * i) 4, field (payloadOf block) (6 + 9 * i) 4))
        = (List.range n).filterMap fun i => (streamArg (byteAt block (33 + 9 * i))).map fun t => (t, g i) := by
      refine List.filterMap_congr fun i m => ?_
      rw [streams i (by have := List.mem_range.mp m; omega), rest]
    have all : (∀ x ∈ eovStreams block, x < 8) ↔ ∀ i ∈ List.range n, (byteAt block (33 + 9 * i)).toNat < 8 := by
      simp only [eovStreams, count, List.forall_mem_map]
    have whole : ((List.range n).filterMap fun i => (streamArg (byteAt block (33 + 9 * i))).map fun t => (t, g i)).length = n
        ↔ ∀ x ∈ eovStreams block, x < 8 := by
      have total := List.filterMap_length_eq_length (l := List.range n)
        (f := fun i => (streamArg (byteAt block (33 + 9 * i))).map fun t => (t, g i))
      rw [List.length_range] at total
      rw [total, all]
      refine forall₂_congr fun i _ => ?_
      simp only [Option.isSome_map, streamArg]
      split <;> simp_all
    rw [entries, eovFormed, lengths]
    have nodup : (∀ x ∈ eovStreams block, x < 8) → ((((List.range n).filterMap fun i =>
        (streamArg (byteAt block (33 + 9 * i))).map fun t => (t, g i)).map (·.1)).Nodup ↔ (eovStreams block).Nodup) := fun small => by
      rw [← List.nodup_map_iff Fin.val_injective, filterMap_streams (fun i => byteAt block (33 + 9 * i)) g _ (all.mp small)]
      simp only [eovStreams, count]
    split
    · next fits =>
      have small := whole.mp fits.1
      simp only [Option.isSome_some, true_iff]
      exact ⟨Nat.le_of_not_lt many, small, (nodup small).mp fits.2⟩
    · next unfit =>
      simp only [Option.isSome_none, Bool.false_eq_true, false_iff]
      exact fun ⟨_, small, distinct⟩ => unfit ⟨whole.mpr small, (nodup small).mpr distinct⟩

/-- A well-formed EOV beside no record in DECODING changes nothing (R172). -/
theorem checkEov_formed {s : Part} {k : LaneId} {block : List Byte} (formed : eovFormed block)
    (none : ∀ i d, s.slot k i ≠ .decoding d) : s.checkEov k (payloadOf block) = s := by
  obtain ⟨entries, same⟩ := Option.isSome_iff_exists.mp (eovPayload_formed.mpr formed)
  have decodings : s.decodings k = [] := by
    refine List.filterMap_eq_nil_iff.mpr fun i _ => ?_
    split
    · next d slot => exact absurd slot (none i d)
    · rfl
  simp only [Part.checkEov, same, decodings, List.foldl_nil]

/-- A malformed EOV is damaged, not accepted (R172). -/
theorem checkEov_malformed {s : Part} {k : LaneId} {block : List Byte} (malformed : ¬ eovFormed block) :
    s.checkEov k (payloadOf block)
      = s.modVerify k fun j => { j.allGaps with accepted := j.accepted - 1, damaged := j.damaged + 1 } := by
  have none : eovPayload (payloadOf block) = none := Option.not_isSome_iff_eq_none.mp (eovPayload_formed.not.mpr malformed)
  simp only [Part.checkEov, none]

/-! ## A READ for identity (R157) -/

/-- The phases of both kinds of job in which a READ is judged for identity (R157). -/
def Lane.identifying (l : Lane) : Prop :=
  (∃ j, l.restore = some j ∧ j.phase = .identifying)
  ∨ ((∀ r, l.restore = some r → r.phase = .waitingVerify) ∧ ∃ j, l.verify = some j ∧ j.phase = .identifying)

theorem readDone_identifying {p : Part} {k : LaneId} {l : Lane} (b : ReadBlock) (block : List Byte) (identifying : l.identifying) :
    (p.setLane k l).readDone k b block = (p.setLane k l).judgeIdentity k b block := by
  rcases identifying with ⟨j, restore, phase⟩ | ⟨waits, j, verify, phase⟩
  · have restoring : (p.setLane k l).restoring k = some j := by
      simp only [Part.restoring, lane_setLane_same, restore, phase, reduceCtorEq, if_false]
    simp only [Part.readDone, restoring, phase, if_true]
  · have restoring : (p.setLane k l).restoring k = none := by
      simp only [Part.restoring, lane_setLane_same]
      cases restore : l.restore with
      | none => rfl
      | some r => exact if_pos (waits r restore)
    have verifying : (p.setLane k l).verifying k = some j := by
      simp only [Part.verifying, lane_setLane_same, verify, phase, reduceCtorEq, if_false]
    simp only [Part.readDone, restoring, verifying, phase, if_true]

/-- The label that the job wants rests on the lane's jobs alone (R157). -/
theorem jobLabel_setLane {s : Part} {k : LaneId} {l m : Lane} (p : Part) (here : s.lane k = m) (restore : l.restore = m.restore)
    (verify : l.verify = m.verify) : (p.setLane k l).jobLabel k = s.jobLabel k := by
  simp only [Part.jobLabel, Part.restoring, Part.verifying, lane_setLane_same, restore, verify, here]

/-- The READ decides the identity: none has before it, and it is a label block of sequence 0 with both folds fitting (R157). -/
def ReadBlock.decides (b : ReadBlock) (l : Lane) : Prop := l.access.identity = none ∧ b.kind = 1 ∧ b.seq = 0 ∧ b.folds = true

theorem judgeIdentity_eq {p : Part} {k : LaneId} {l : Lane} {b : ReadBlock} {block : List Byte} {n : Label} (marker : b.marker = true)
    (wants : (p.setLane k l).jobLabel k = some n) :
    (b.decides l → (p.setLane k l).judgeIdentity k b block = p.setLane k { l with
      buffer := none
      access := { l.access with identity := some (decide (b.label = n ∧ labelAt block 32 = n)), walk := none } })
    ∧ (¬ b.decides l → (p.setLane k l).judgeIdentity k b block = p.setLane k { l with
      buffer := none, access := { l.access with walk := none } }) := by
  obtain ⟨m, freed⟩ : ∃ m : Lane, { l with buffer := none, access := { l.access with walk := none } } = m := ⟨_, rfl⟩
  have identity : m.access.identity = l.access.identity := freed ▸ rfl
  have label : (p.setLane k m).jobLabel k = some n := by
    rw [← wants, ← freed]
    exact jobLabel_setLane p (lane_setLane_same p k l) rfl rfl
  simp only [Part.judgeIdentity, freeBuffer_setLane, freed, lane_setLane_same, identity, label, marker, Bool.true_and,
    ReadBlock.decides]
  refine ⟨fun ⟨undecided, kind, seq, folds⟩ => ?_, fun idle => ?_⟩
  · simp only [undecided, Option.isSome_none, Bool.false_eq_true, if_false, kind, seq, folds, beq_self_eq_true, Bool.and_self, if_true]
    rw [← freed, Part.modAccess, modLane_setLane]
    have verdict : (some n == some b.label && some n == some (labelAt block 32)) = decide (b.label = n ∧ labelAt block 32 = n) := by
      rw [Bool.eq_iff_iff]
      simp only [Bool.and_eq_true, beq_iff_eq, Option.some.injEq, decide_eq_true_eq, @eq_comm _ n]
    rw [verdict]
  · cases undecided : l.access.identity with
    | some x => simp only [Option.isSome_some, if_true]
    | none =>
      have unfit : (b.kind == 1 && b.seq == 0 && b.folds) = false := by
        rw [Bool.eq_false_iff]
        intro fits
        simp only [Bool.and_eq_true, beq_iff_eq] at fits
        obtain ⟨⟨kind, seq⟩, folds⟩ := fits
        exact idle ⟨undecided, kind, seq, folds⟩
      simp only [Option.isSome_none, Bool.false_eq_true, if_false, unfit]

/-- The block has the rewrite count, the kind, the folds and the trailer that a verify job calls for at its sequence (R159, R170). -/
def VerifyJob.accepts (j : VerifyJob) (block : List Byte) : Prop :=
  field block 6 1 = runsWith j.runs (field block 16 4)
  ∧ field block 4 1 = j.kindAt (field block 16 4) ∧ foldCheck (block.take 32) = field block 32756 4
  ∧ foldCheck (slice block 32 32720) = field block 32752 4 ∧ slice block 32760 4 = [0x4B, 0x44, 0x53, 0x45]

section VerifyEvent
variable {s : State} {t : Txn} {k : LaneId} {block : List Byte} {o : Outstanding} {j : VerifyJob} {a last : Nat} {l : Lane}
  (completes : s.completesReturn t k block) (out : (s.lane k).outstanding = some o) (seek : o.seek ≠ none)
  (here : s.buffered (s.lane k) o block = l)
  (restore : l.restore = none) (verify : l.verify = some j) (reading : j.phase = .reading) (chunk : l.access.chunk = some (a, last))
include completes out seek here restore verify reading

/-- A READ of a verify job's chunk, as an event, is what the job makes of it (R96). -/
theorem verifyRead_leaves : ∃ b : ReadBlock, b.Of block ∧ ∀ m : Lane,
    ((s.okayed t).setLane k l).readVerify k j b block = (s.okayed t).setLane k m → Leaves (.returnWrite t) s (s.setLane k m) := by
  obtain ⟨b, reads, leaves⟩ := read_leaves completes out seek
  rw [here] at leaves
  exact ⟨b, reads, fun m same => leaves m ((readDone_verify b block restore verify reading).trans same)⟩

include chunk

/-- A READ that a verify job's acceptance rule skips is counted (R159, R170). -/
theorem verifyRead_skipped (skipped : last < field block 16 4 ∨ field block 6 1 < runsWith j.runs (field block 16 4)
    ∨ field block 16 4 < j.expected)
    {m : Lane} (is : { l with
      verify := some { j with skipped := j.skipped + 1 }, buffer := none, access := { l.access with walk := none } } = m) :
    Leaves (.returnWrite t) s (s.setLane k m) := by
  subst is
  obtain ⟨b, reads, leaves⟩ := verifyRead_leaves completes out seek here restore verify reading
  exact leaves _ (readVerify_skipped verify chunk ((judge_reads reads j.runs j.expected last _).1 skipped))

variable (kept : ¬ (last < field block 16 4 ∨ field block 6 1 < runsWith j.runs (field block 16 4) ∨ field block 16 4 < j.expected))
  {n : Nat} (count : field block 16 4 - j.expected - j.absent j.expected (field block 16 4) = n)
include kept count

/-- A READ that fails a verify job's acceptance rule is damaged (R159, R170). -/
theorem verifyRead_damaged (bad : ¬ j.accepts block)
    {m : Lane} (is : { l with
      verify := some { j.lostTo n (field block 16 4) with damaged := j.damaged + 1, gaps := Vector.replicate 8 true }
      buffer := none, access := { l.access with walk := none } } = m) :
    Leaves (.returnWrite t) s (s.setLane k m) := by
  subst is
  obtain ⟨b, reads, leaves⟩ := verifyRead_leaves completes out seek here restore verify reading
  have verdict := (judge_reads reads j.runs j.expected last (j.kindAt b.seq)).2 kept
  rw [if_neg (by rw [reads.seq]; exact bad)] at verdict
  exact leaves _ (readVerify_damaged verify chunk count verdict)

/-- A READ that a verify job accepts is handed on by its kind (R170, R172). -/
theorem verifyRead_accepted (good : j.accepts block)
    {x : Part} (counted : (s.okayed t).setLane k { l with
      verify := some { j.lostTo n (field block 16 4) with accepted := j.accepted + 1 } } = x) {m : Lane}
    (handed : (match j.kindAt (field block 16 4) with
      | 1 => x.freeBuffer k
      | 3 => (x.checkEov k (payloadOf block)).freeBuffer k
      | _ => x.beginWalk k (field block 24 2)) = (s.okayed t).setLane k m) : Leaves (.returnWrite t) s (s.setLane k m) := by
  obtain ⟨b, reads, leaves⟩ := verifyRead_leaves completes out seek here restore verify reading
  have verdict := (judge_reads reads j.runs j.expected last (j.kindAt b.seq)).2 kept
  rw [if_pos (by rw [reads.seq]; exact good)] at verdict
  refine leaves _ ((readVerify_accepted verify chunk count verdict).trans ?_)
  rw [counted, reads.used]
  exact handed

/-- An accepted LABEL is done with (R170). -/
theorem verifyRead_label (good : j.accepts block)
    (label : j.kindAt (field block 16 4) = 1)
    {m : Lane} (is : { l with
      verify := some { j.lostTo n (field block 16 4) with accepted := j.accepted + 1 }
      buffer := none, access := { l.access with walk := none } } = m) :
    Leaves (.returnWrite t) s (s.setLane k m) := by
  subst is
  refine verifyRead_accepted completes out seek here restore verify reading chunk kept count good rfl ?_
  rw [label]
  exact freeBuffer_setLane _ k _

/-- An accepted DATA block stays for the walk (R161, R170). -/
theorem verifyRead_data (good : j.accepts block)
    (data : j.kindAt (field block 16 4) = 2)
    {m : Lane} (is : { l with
      verify := some { j.lostTo n (field block 16 4) with accepted := j.accepted + 1 }
      buffer := if field block 24 2 = 0 then none else l.buffer
      access := { l.access with walk := if field block 24 2 = 0 then none else some ⟨0, field block 24 2, none, none⟩ } } = m) :
    Leaves (.returnWrite t) s (s.setLane k m) := by
  subst is
  refine verifyRead_accepted completes out seek here restore verify reading chunk kept count good rfl ?_
  rw [data]
  exact beginWalk_setLane _ k _ _

/-- An accepted EOV in due form, with no record in DECODING, is done with (R172). -/
theorem verifyRead_eov (good : j.accepts block)
    (eov : j.kindAt (field block 16 4) = 3) (formed : eovFormed block) (none : ∀ i d, s.slot k i ≠ .decoding d)
    {m : Lane} (is : { l with
      verify := some { j.lostTo n (field block 16 4) with accepted := j.accepted + 1 }
      buffer := .none, access := { l.access with walk := .none } } = m) :
    Leaves (.returnWrite t) s (s.setLane k m) := by
  subst is
  refine verifyRead_accepted completes out seek here restore verify reading chunk kept count good rfl ?_
  rw [eov]
  refine (congrArg (fun p : Part => p.freeBuffer k) (checkEov_formed formed fun i d => ?_)).trans (freeBuffer_setLane _ k _)
  rw [Part.slot, lane_setLane_same, ← here]
  exact none i d

/-- An EOV not in due form is damaged (R172). -/
theorem verifyRead_malformed (good : j.accepts block)
    (eov : j.kindAt (field block 16 4) = 3) (malformed : ¬ eovFormed block)
    {m : Lane} (is : { l with
      verify := some { j.lostTo n (field block 16 4) with damaged := j.damaged + 1, gaps := Vector.replicate 8 true }
      buffer := none, access := { l.access with walk := none } } = m) :
    Leaves (.returnWrite t) s (s.setLane k m) := by
  subst is
  refine verifyRead_accepted completes out seek here restore verify reading chunk kept count good rfl ?_
  rw [eov]
  refine (congrArg (fun p : Part => p.freeBuffer k) (checkEov_malformed malformed)).trans ?_
  rw [modVerify_setLane, freeBuffer_setLane]
  rfl

end VerifyEvent

/-! ## The statement -/

/-- Lane `k` with the first bytes of a return (R94). -/
def Part.begun (s : Part) (k : LaneId) (bytes : List Byte) : Lane :=
  { s.lane k with ret := some ⟨bytes, Fold.start.addAll bytes, Fold.start⟩, cut := none }

/-- The first write of a return, short of a header's end, is taken (R94). -/
theorem returnWrite_taken {s : State} {t : Txn} {k : LaneId} (high : s.pins.resetLow = false) (kind : s.classify t = .ret k 0)
    (alone : s.bus.waiting = []) (short : (enabledBytes t).length < 32) (quiet : s.quiet = true) :
    ∃ u : State, exec (.returnWrite t) s = .next u ∧ u.pending = s.pending
      ∧ u.blocks = (s.setLane k (s.begun k (enabledBytes t))).blocks ∧ u.unit.latched = s.unit.latched ∧ u.bus.waiting = []
      ∧ u.bus.answered = s.bus.answered ++ [⟨t.tag, true, none, []⟩] := by
  have okayed := accept_okay (s.modLane k fun l => { l with ret := none, cut := none }) t (fresh_of_alone s.toPart alone) []
  have taken : s.clientTransaction t = (s.setLane k (s.begun k (enabledBytes t))).acceptedAs t
      (.ready ⟨t.tag, true, none, []⟩) none := by
    rw [clientTransaction_ret kind, returnWrite_begins _ short]
    refine (congrArg (fun p : Part => p.modLane k fun l => { l with
      ret := some ⟨enabledBytes t, Fold.start.addAll (enabledBytes t), Fold.start⟩ }) okayed).trans ?_
    cases k <;> rfl
  have calm : (s.setLane k (s.begun k (enabledBytes t))).quiet = s.quiet := quiet_setLane rfl rfl
  rw [quiet] at calm
  exact kindEvent_answers (exec_returnWrite t s) high (by rw [kind]; rfl) taken alone calm

/-- Settles O20: `returnWrite_taken`, `ret_away` and `ret_unexpected`, `restoreRead_leaves`, the cases `verifyRead_*` of a verify
job's READ, and `judgeIdentity_eq`. -/
theorem returnWritesTakenOrRefused : Obligations.ReturnWritesTakenOrRefused := by
  refine ⟨fun s t k high kind alone short quiet => ?_, fun s t k off high kind alone quiet => ?_,
    fun s t k block o j v a last completes out seek restore reading wants chunk volume => ?_,
    fun s t k block o j a last completes out seek restore verify reading chunk => ?_,
    fun s t k block o n completes out seek label identifying => ?_⟩
  · exact returnWrite_taken high kind alone short quiet
  · have counted : (s.counted k).quiet = true := (quiet_counted s.toPart k).trans quiet
    exact ⟨fun later away => ⟨
        fun other => returnWrite_refused high kind rfl rfl rfl alone quiet ((ret_away kind alone later away).trans (if_neg other)),
        fun cut => returnWrite_refused high kind rfl rfl rfl alone counted ((ret_away kind alone later away).trans (if_pos cut))⟩,
      fun first long unexpected =>
        returnWrite_refused high kind rfl rfl rfl alone counted (ret_unexpected kind alone first long unexpected)⟩
  · obtain ⟨b, reads, leaves⟩ := restoreRead_leaves completes out seek restore reading wants chunk volume
    obtain ⟨skips, keeps⟩ := judge_reads reads v.runs j.expected last 2
    rw [reads.used] at leaves
    refine ⟨fun skipped => ?_, fun kept bad => ?_, fun kept count good => ?_⟩
    · rw [skips skipped] at leaves
      exact leaves
    · rw [(keeps kept).trans (if_neg bad)] at leaves
      exact leaves
    · rw [(keeps kept).trans (if_pos ⟨count, good⟩)] at leaves
      refine ⟨fun none => ?_, fun some => ?_⟩
      · simp only [RestoreJob.readBy, if_pos none] at leaves
        exact leaves
      · simp only [RestoreJob.readBy, if_neg some] at leaves
        exact leaves
  · have count := (VerifyJob.lost_count j j.expected (field block 16 4)).symm
    have here : s.buffered (s.lane k) o block = _ := rfl
    refine ⟨fun skipped => verifyRead_skipped completes out seek here restore verify reading chunk skipped rfl,
      fun kept bad => verifyRead_damaged completes out seek here restore verify reading chunk kept count bad rfl,
      fun kept runs good => ⟨fun label => ?_, fun data blank => ?_, fun data filled => ?_, fun eov formed named => ?_,
        fun eov malformed => ?_⟩⟩
    · exact verifyRead_label completes out seek here restore verify reading chunk kept count ⟨runs, good⟩ label rfl
    · exact verifyRead_data completes out seek here restore verify reading chunk kept count ⟨runs, good⟩ data
        (by rw [if_pos blank, if_pos blank]; rfl)
    · exact verifyRead_data completes out seek here restore verify reading chunk kept count ⟨runs, good⟩ data
        (by rw [if_neg filled, if_neg filled]; rfl)
    · exact verifyRead_eov completes out seek here restore verify reading chunk kept count ⟨runs, good⟩ eov formed named rfl
    · exact verifyRead_malformed completes out seek here restore verify reading chunk kept count ⟨runs, good⟩ eov malformed rfl
  · obtain ⟨b, reads, leaves⟩ := read_leaves completes out seek
    have handed : ((s.okayed t).setLane k (s.buffered (s.lane k) o block)).readDone k b block = _ :=
      readDone_identifying b block identifying
    have wants : ((s.okayed t).setLane k (s.buffered (s.lane k) o block)).jobLabel k = some n := by
      rw [← label]
      exact jobLabel_setLane (s := s.toPart) _ rfl rfl rfl
    obtain ⟨decides, stands⟩ := judgeIdentity_eq (block := block) reads.marker wants
    have deciding : b.decides (s.buffered (s.lane k) o block) ↔ (s.lane k).access.identity = none ∧ field block 4 1 = 1
        ∧ field block 16 4 = 0 ∧ foldCheck (block.take 32) = field block 32756 4
        ∧ foldCheck (slice block 32 32720) = field block 32752 4 := by
      rw [ReadBlock.decides, reads.kind, reads.seq, reads.folds]
      rfl
    rw [reads.label] at decides
    exact ⟨fun fits => leaves _ (handed.trans (decides (deciding.mpr fits))),
      fun unfit => leaves _ (handed.trans (stands (deciding.not.mpr unfit)))⟩

end Sys2Proof.Machine
end

section
/-! SUPPORT. The work of the read jobs step by step: what it leaves of the locations, of the lane's figures and of the other lane
(R155 to R158, R164, R165, R169 to R175). -/

namespace Sys2Proof.Machine

/-! ## Records reported (R161, R163, R164) -/

theorem output_works (s : Part) (k : LaneId) (bytes : List Byte) : s.WorksOn (s.output k bytes) k := by
  unfold Part.output
  split
  · next j _ =>
    refine Part.WorksOn.trans (t := s.pushWrites (fun _ => .restoreOut k j.id) j.pointer bytes)
      (worksOn_of_lanes k (fun _ => rfl) (fun _ => rfl)) ?_
    exact modRestore_works fun _ => ⟨rfl, rfl, rfl⟩
  · exact worksOn_refl s k

theorem reportShort_works (s : Part) (k : LaneId) (record : Nat) (r : RecResult) : s.WorksOn (s.reportShort k record r) k :=
  Part.WorksOn.trans (output_works s k _) (modRestore_works (f := fun j => j.count record r) fun _ => ⟨rfl, rfl, rfl⟩)

theorem waitDest_works (s : Part) (k : LaneId) : s.WorksOn (s.waitDest k) k := by
  have waits : s.WorksOn (s.modRestore k fun j => { j with phase := .waitingDest }) k := modRestore_works fun _ => ⟨rfl, rfl, rfl⟩
  have stopped := waits.trans (worksOn_keeping (l := { (s.modRestore k fun j => { j with phase := .waitingDest }).lane k with
    outstanding := ((s.modRestore k fun j => { j with phase := .waitingDest }).lane k).outstanding.map fun o => { o with timer := none } })
    rfl rfl rfl rfl rfl)
  exact stopped.trans (worksOn_of_lanes k (fun _ => rfl) (fun _ => rfl))

theorem reportUnseen_works (k : LaneId) (r : RecResult) (skip : Option Nat) (n : Nat) (s : Part) :
    s.WorksOn (reportUnseen k r skip n s).1 k := by
  induction n generalizing s with
  | zero => exact worksOn_refl s k
  | succ n ih =>
    unfold reportUnseen
    split
    · exact worksOn_refl s k
    · split
      · refine Part.WorksOn.trans ?_ (ih _)
        exact modRestore_works fun _ => ⟨rfl, rfl, rfl⟩
      · split
        · exact waitDest_works s k
        · exact (reportShort_works s k _ _).trans (ih _)

/-! ## Moves asked for (R146, R147, R155, R156) -/

theorem request_works (s : Part) (k : LaneId) (j : Job) : s.WorksOn (s.request k j) k := by
  have failed : s.WorksOn ((s.failJob j .changerFault).laneFault k .changer) k := by
    refine Part.WorksOn.trans ?_ (laneFault_works _ k _)
    unfold Part.failJob Part.fail
    dsimp only
    split <;> exact worksOn_of_lanes k (fun _ => rfl) (fun _ => rfl)
  unfold Part.request
  split
  · dsimp only
    split
    · split
      · exact failed.trans (endLending_works _ k)
      · exact failed
    · exact failed
  · exact worksOn_of_lanes k (fun _ => rfl) (fun _ => rfl)

/-- A lane that leaves its state for one that the volume logic does not judge (R155). -/
theorem enterState_works (s : Part) (k : LaneId) {l : Lane} (other : ¬ l.judged) (verify : l.verify = (s.lane k).verify)
    (lastVerify : l.lastVerify = (s.lane k).lastVerify) (restore : l.restore = (s.lane k).restore)
    (lastRestore : l.lastRestore = (s.lane k).lastRestore) : s.WorksOn (s.setLane k l) k :=
  worksOn_setLane (fun judged => absurd judged other) (by rw [Lane.verifyFigures, verify, lastVerify]; rfl)
    (fun none => ⟨verify.trans none, lastVerify⟩) (by rw [Lane.restoreFigures, restore, lastRestore]; rfl)

theorem loadFrom_works (s : Part) (k : LaneId) (p : Loc) (label : Label) : s.WorksOn (s.loadFrom k p label) k :=
  Part.WorksOn.trans (t := s.modLane k fun l => { l with state := .loading }) (enterState_works s k (by simp [Lane.judged]) rfl rfl rfl rfl)
    (request_works _ k _)

theorem startUnload_works (s : Part) (k : LaneId) : s.WorksOn (s.startUnload k) k :=
  enterState_works s k (by simp [Lane.judged]) rfl rfl rfl rfl

theorem modAccess_works (s : Part) (k : LaneId) (f : Access → Access) : s.WorksOn (s.modAccess k f) k :=
  worksOn_keeping rfl rfl rfl rfl rfl

theorem jobPhase_works (s : Part) (k : LaneId) (r : RestorePhase) (v : VerifyPhase) : s.WorksOn (s.jobPhase k r v) k := by
  unfold Part.jobPhase
  split
  · exact modRestore_works fun _ => ⟨rfl, rfl, rfl⟩
  · split
    · exact modVerify_works fun _ => ⟨rfl, rfl, rfl⟩
    · exact worksOn_refl s k

theorem makeSeek_works (s : Part) (k : LaneId) (a b : Nat) : s.WorksOn (s.makeSeek k a b) k :=
  Part.WorksOn.trans (t := s.modLane k fun l => { l with pending := some (.seek a b) }) (worksOn_keeping rfl rfl rfl rfl rfl)
    (modAccess_works _ k _)

theorem beginIdentify_works (s : Part) (k : LaneId) : s.WorksOn (s.beginIdentify k) k := by
  have enters : s.WorksOn (s.modLane k fun l => { l with state := .identifying }) k :=
    enterState_works s k (by simp [Lane.judged]) rfl rfl rfl rfl
  exact ((enters.trans (modAccess_works _ k _)).trans (jobPhase_works _ k _ _)).trans (makeSeek_works _ k 0 0)

theorem lend_works (s : Part) (k : LaneId) (label : Label) : s.WorksOn (s.lend k label).1 k := by
  unfold Part.lend
  dsimp only
  split
  · next lends =>
    have lender : s.WorksOn ((s.startUnload k.other).modLane k.other fun l => { l with lending := some ⟨false, false, none⟩ }) k := by
      rw [Part.startUnload, Part.modLane, Part.modLane, setLane_setLane, lane_setLane_same]
      refine worksOn_setOther (calm_aside _ _ _ (.inr (.inr rfl))) fun shut => ?_
      rw [shut.state] at lends
      cases lends.1
    dsimp only
    refine (lender.trans ?_).trans (modAccess_works _ k _)
    exact enterState_works _ k (by simp [Lane.judged]) rfl rfl rfl rfl
  · exact worksOn_refl s k

theorem fetch_works (s : Part) (k : LaneId) (label : Label) : s.WorksOn (s.fetch k label).1 k := by
  obtain ⟨t, begun⟩ : ∃ t, (s.modAccess k (fun a => { a with loan := .none, source := none })).jobPhase k .fetching .fetching = t := ⟨_, rfl⟩
  have first : s.WorksOn t k := begun ▸ (modAccess_works s k _).trans (jobPhase_works _ k _ _)
  unfold Part.fetch
  rw [begun]
  dsimp only
  refine first.trans ?_
  split
  · exact worksOn_refl t k
  · split
    · exact beginIdentify_works t k
    · split
      · split
        · split
          · dsimp only
            exact (startUnload_works t k).trans (modAccess_works _ k _)
          · exact lend_works t k label
        · exact worksOn_refl t k
      · split
        · dsimp only
          exact (startUnload_works t k).trans (modAccess_works _ k _)
        · exact loadFrom_works t k _ label

/-! ## Read jobs that end (R165, R173, R175) -/

/-- What every end of a read job drops: requests, the pending order, the outstanding one (R165, R173). -/
theorem dropOrders_works (s : Part) (k : LaneId) : s.WorksOn (((s.withdraw k).dropPending k).endOrder k) k := by
  have pending : (s.withdraw k).WorksOn ((s.withdraw k).dropPending k) k := worksOn_keeping rfl rfl rfl rfl rfl
  have order : ((s.withdraw k).dropPending k).WorksOn (((s.withdraw k).dropPending k).endOrder k) k := worksOn_keeping rfl rfl rfl rfl rfl
  exact ((withdraw_works s k).trans pending).trans order

theorem endVerify_works (s : Part) (k : LaneId) (r : JobResult) : s.WorksOn (s.endVerify k r) k :=
  ((dropOrders_works s k).trans (verifyOver_works _ k r)).trans (rest_works _ k)

theorem fetchVerify_works (s : Part) (k : LaneId) : s.WorksOn (s.fetchVerify k) k := by
  unfold Part.fetchVerify
  split
  · exact worksOn_refl s k
  · next j _ =>
    obtain ⟨t, begun⟩ : ∃ t, (s.modVerify k (fun j => { j with phase := .fetching })).modLane k
        (fun l => { l with unpack := Unpack.empty false }) = t := ⟨_, rfl⟩
    have first : s.WorksOn t k := by
      have phase : s.WorksOn (s.modVerify k fun j => { j with phase := .fetching }) k := modVerify_works fun _ => ⟨rfl, rfl, rfl⟩
      rw [← begun]
      exact phase.trans (worksOn_keeping rfl rfl rfl rfl rfl)
    have fetched := first.trans (fetch_works t k j.label)
    rw [begun]
    dsimp only
    split
    · next u r same =>
      rw [same] at fetched
      exact fetched.trans (endVerify_works u k r)
    · next u same =>
      rw [same] at fetched
      exact fetched

theorem resumeVerify_works (s : Part) (k : LaneId) : s.WorksOn (s.resumeVerify k) k := by
  unfold Part.resumeVerify
  split
  · split
    · exact fetchVerify_works s k
    · exact worksOn_refl s k
  · exact worksOn_refl s k

theorem endRestore_works (s : Part) (k : LaneId) (r : JobResult) : s.WorksOn (s.endRestore k r) k :=
  (((dropOrders_works s k).trans (restoreOver_works _ k r)).trans (rest_works _ k)).trans (resumeVerify_works _ k)

theorem freeBuffer_works (s : Part) (k : LaneId) : s.WorksOn (s.freeBuffer k) k := worksOn_keeping rfl rfl rfl rfl rfl

theorem endEarly_works (s : Part) (k : LaneId) (r : JobResult) : s.WorksOn (s.endEarly k r) k := by
  obtain ⟨t, named⟩ : ∃ t, s.nameRestore k .incomplete (r != .memory) = t := ⟨_, rfl⟩
  have first : s.WorksOn t k := named ▸ nameRestore_works s k _ _
  unfold Part.endEarly
  rw [named]
  dsimp only
  split
  · refine first.trans (Part.WorksOn.trans ?_ (freeBuffer_works _ k))
    refine Part.WorksOn.trans ?_ (modRestore_works fun _ => ⟨rfl, rfl, rfl⟩)
    exact worksOn_keeping rfl rfl rfl rfl rfl
  · exact first.trans (endRestore_works t k r)

theorem endJob_works (s : Part) (k : LaneId) (r : JobResult) : s.WorksOn (s.endJob k r) k := by
  unfold Part.endJob
  split
  · exact endEarly_works s k r
  · exact endVerify_works s k r

theorem loanStep_works (s : Part) (k : LaneId) : s.WorksOn (s.loanStep k) k := by
  unfold Part.loanStep
  split
  · exact endJob_works s k _
  · exact worksOn_refl s k

theorem endingStep_works (s : Part) (k : LaneId) (j : RestoreJob) : s.WorksOn (s.endingStep k j) k := by
  unfold Part.endingStep
  split
  · exact endRestore_works s k _
  · dsimp only
    have reported : ∀ n, s.WorksOn (reportUnseen k (gapResult j.gap) none n (s.nameRestore k (gapResult j.gap) true)).1 k :=
      fun n => (nameRestore_works s k _ true).trans (reportUnseen_works k _ none n _)
    split
    · next t same =>
      obtain rfl : _ = t := congrArg Prod.fst same
      exact reported _
    · next t same =>
      have works : s.WorksOn t k := by
        rw [show t = _ from (congrArg Prod.fst same).symm]
        exact reported _
      split
      · exact works
      · exact works.trans (endRestore_works t k _)

/-! ## Steps that move a restore on (R158, R165, R173, R174) -/

theorem modRestore_moves (s : Part) (k : LaneId) (f : RestoreJob → RestoreJob) : s.Works (s.modRestore k f) k where
  occ _ := rfl
  judged := by rw [Part.modRestore, lane_modLane_same]; exact id
  figures := by rw [Part.modRestore, lane_modLane_same]; rfl
  ended := by rw [Part.modRestore, lane_modLane_same]; exact fun none => ⟨none, rfl⟩
  calm := by rw [Part.modRestore, lane_modLane_other]; exact id
  shut _ := by rw [Part.modRestore, lane_modLane_other]

theorem fetchRestore_works (s : Part) (k : LaneId) : s.Works (s.fetchRestore k) k := by
  unfold Part.fetchRestore
  split
  · exact (worksOn_refl s k).toWorks
  · split
    · exact (worksOn_refl s k).toWorks
    · next v _ =>
      dsimp only
      have fetched := (modRestore_moves s k fun j => { j with phase := .fetching, expected := v.firstBlock }).trans
        (fetch_works _ k v.label).toWorks
      split
      · next t r same =>
        rw [same] at fetched
        exact fetched.trans (endEarly_works t k r).toWorks
      · next t same =>
        rw [same] at fetched
        exact fetched

theorem startRestore_works (s : Part) (k : LaneId) : s.Works (s.startRestore k) k := by
  have emptied : s.WorksOn (s.modLane k fun l => { l with unpack := Unpack.empty true, access := Access.none }) k :=
    worksOn_keeping rfl rfl rfl rfl rfl
  exact emptied.toWorks.trans (fetchRestore_works _ k)

theorem restoreStep_works (s : Part) (k : LaneId) : s.Works (s.restoreStep k) k := by
  unfold Part.restoreStep
  split
  · exact (worksOn_refl s k).toWorks
  · split
    · exact (worksOn_refl s k).toWorks
    · split
      · exact (endingStep_works s k _).toWorks
      · split
        · exact (modRestore_moves s k _).trans (endingStep_works _ k _).toWorks
        · split
          · exact (modRestore_moves s k _).trans (fetchRestore_works _ k)
          · exact (makeSeek_works s k _ _).toWorks
      · exact (worksOn_refl s k).toWorks

theorem setLoc_works (s : Part) (k : LaneId) (p : Loc) (r : LocRecord) (same : r.occ = (s.loc p).occ) : s.WorksOn (s.setLoc p r) k := by
  refine worksOn_of_lanes k (fun _ => rfl) fun q => ?_
  by_cases here : p = q
  · rw [← here, loc_setLoc_same, same]
  · rw [loc_setLoc_ne s p q r here]

theorem modSpan_works (s : Part) (k : LaneId) (l : Label) (f : SpanEntry → SpanEntry) : s.WorksOn (s.modSpan l f) k :=
  worksOn_of_lanes k (fun _ => rfl) (fun _ => rfl)

theorem verdict_works (s : Part) (k : LaneId) (j : VerifyJob) : s.WorksOn (s.verdict j) k := by
  unfold Part.verdict
  split
  · exact worksOn_refl s k
  · split
    · split
      · exact setLoc_works s k _ _ rfl
      · exact worksOn_refl s k
    · dsimp only
      refine Part.WorksOn.trans ?_ (modSpan_works _ k _ _)
      split
      · exact setLoc_works s k _ _ rfl
      · exact worksOn_refl s k

theorem verdict_lane (s : Part) (j : VerifyJob) (k : LaneId) : (s.verdict j).lane k = s.lane k := by
  unfold Part.verdict
  repeat' split
  all_goals rfl

theorem suspendVerify_works (s : Part) (k : LaneId) : s.Works (s.suspendVerify k) k := by
  obtain ⟨t, named⟩ : ∃ t, (s.decodings k).foldl (fun s (x : Fin 8 × Decoding) => s.nameVerify k x.1 .isPartial) s = t := ⟨_, rfl⟩
  have first : s.WorksOn t k := named ▸ nameAll_works (fun _ _ => .isPartial) _ s
  unfold Part.suspendVerify
  dsimp only
  rw [named]
  refine Part.Works.trans ?_ (startRestore_works _ k)
  refine Part.Works.trans ?_ (modRestore_moves _ k _)
  refine first.toWorks.trans (Part.WorksOn.toWorks ?_)
  exact modVerify_works fun _ => ⟨rfl, rfl, rfl⟩

/-! ## A verify job over: its last figures (R173) -/

theorem verifyOver_last {s : Part} {k : LaneId} {j : VerifyJob} (r : JobResult) (verify : (s.lane k).verify = some j) :
    ((s.verifyOver k r).lane k).verify = none ∧ ((s.verifyOver k r).lane k).lastVerify = some { j with result := r } := by
  obtain ⟨t, finished⟩ : ∃ t, s.modLane k (fun l => { l with verify := none, lastVerify := some { j with result := r } }) = t := ⟨_, rfl⟩
  have none : (t.lane k).verify = none := by rw [← finished, lane_modLane_same]
  have last : (t.lane k).lastVerify = some { j with result := r } := by rw [← finished, lane_modLane_same]
  simp only [Part.verifyOver, verify, finished]
  split
  · exact ⟨none, last⟩
  · obtain ⟨stays, same⟩ := (dropAccess_works t k).ended none
    exact ⟨stays, same.trans last⟩

theorem nameVerify_runs (s : Part) (k : LaneId) (t : Fin 8) (r : RecResult) :
    ((s.nameVerify k t r).lane k).verify.isSome = (s.lane k).verify.isSome := by
  unfold Part.nameVerify
  split
  · simp only [Part.setSlot, Part.modVerify, lane_modLane_same, Option.isSome_map]
  · rfl

theorem nameAll_runs {k : LaneId} (f : Part → Fin 8 × Decoding → RecResult) (xs : List (Fin 8 × Decoding)) (s : Part) :
    ((xs.foldl (fun s x => s.nameVerify k x.1 (f s x)) s).lane k).verify.isSome = (s.lane k).verify.isSome :=
  List.foldlRecOn (motive := fun t => (t.lane k).verify.isSome = (s.lane k).verify.isSome) xs _ rfl fun t runs x _ =>
    (nameVerify_runs t k x.1 (f t x)).trans runs

/-- A verify job ended: what it leaves (R173). -/
theorem endVerify_last {s : Part} {k : LaneId} (r : JobResult) (runs : (s.lane k).verify.isSome = true) :
    ((s.endVerify k r).lane k).verify = none ∧ ((s.endVerify k r).lane k).lastVerify.map (·.result) = some r := by
  obtain ⟨j, verify⟩ := Option.isSome_iff_exists.mp runs
  have kept : ((((s.withdraw k).dropPending k).endOrder k).lane k).verify = some j := by
    rw [Part.endOrder, lane_modLane_same, Part.dropPending, lane_modLane_same, withdraw_lane]
    exact verify
  obtain ⟨none, last⟩ := verifyOver_last r kept
  obtain ⟨stays, same⟩ := (rest_works ((((s.withdraw k).dropPending k).endOrder k).verifyOver k r) k).ended none
  exact ⟨stays, by rw [Part.endVerify, same, last]; rfl⟩

/-- A verify job of which all is read ends with COMPLETE (R172, R173, R174). -/
theorem completeVerify_ends {s : Part} {k : LaneId} (runs : (s.lane k).verify.isSome = true) :
    s.Works (s.completeVerify k) k ∧ ((s.completeVerify k).lane k).verify = none
      ∧ ((s.completeVerify k).lane k).lastVerify.map (·.result) = some .complete := by
  obtain ⟨f, gaps⟩ : ∃ f : Part → Fin 8 × Decoding → RecResult, f = fun s x =>
    if (match (s.lane k).verify with
      | some j => j.gaps[x.1]
      | none => false) then .damaged else .isPartial := ⟨_, rfl⟩
  obtain ⟨t, named⟩ : ∃ t, ((s.modVerify k fun j => { j with phase := .ending }).decodings k).foldl
    (fun s x => s.nameVerify k x.1 (f s x)) (s.modVerify k fun j => { j with phase := .ending }) = t := ⟨_, rfl⟩
  have ending : s.WorksOn (s.modVerify k fun j => { j with phase := .ending }) k := modVerify_works fun _ => ⟨rfl, rfl, rfl⟩
  have names : s.WorksOn t k := ending.trans (named ▸ nameAll_works f _ _)
  have running : (t.lane k).verify.isSome = true := by
    rw [← named, nameAll_runs, Part.modVerify, lane_modLane_same, Option.isSome_map, runs]
  obtain ⟨j, verify⟩ := Option.isSome_iff_exists.mp running
  have works := (names.trans (verdict_works t k j)).trans (endVerify_works (t.verdict j) k .complete)
  have judged : ((t.verdict j).lane k).verify.isSome = true := by rw [verdict_lane, running]
  obtain ⟨gone, last⟩ := endVerify_last .complete judged
  obtain ⟨y, closed⟩ : ∃ y, (t.verdict j).endVerify k .complete = y := ⟨_, rfl⟩
  have shape : s.completeVerify k = match (y.lane k).restore with
      | some r => if r.phase = .waitingVerify then (y.modRestore k fun j => { j with phase := .fetching }).startRestore k else y
      | none => y := by
    have verdict : (match (t.lane k).verify with
        | some j => t.verdict j
        | none => t) = t.verdict j := by rw [verify]
    rw [← closed, ← verdict, ← named, gaps]
    rfl
  rw [closed] at works gone last
  have hands : y.Works (s.completeVerify k) k := by
    rw [shape]
    split
    · split
      · exact (modRestore_moves y k _).trans (startRestore_works _ k)
      · exact (worksOn_refl y k).toWorks
    · exact (worksOn_refl y k).toWorks
  obtain ⟨stays, same⟩ := hands.ended gone
  exact ⟨works.toWorks.trans hands, stays, by rw [same, last]⟩

theorem verifyStep_works (s : Part) (k : LaneId) : s.Works (s.verifyStep k) k := by
  unfold Part.verifyStep
  split
  · exact (worksOn_refl s k).toWorks
  · next j verifying =>
    have runs : (s.lane k).verify.isSome = true := by
      simp only [Part.verifying] at verifying
      split at verifying
      · next verify => rw [verify]; rfl
      · cases verifying
    split
    · exact (worksOn_refl s k).toWorks
    · split
      · exact (completeVerify_ends runs).1
      · split
        · exact suspendVerify_works s k
        · exact (makeSeek_works s k _ _).toWorks

/-! ## The end of an event beside a calm lane (R86, R156) -/

/-- A resting lane that follows its bay leaves the work of the read jobs (R86). -/
theorem follow_works (s : Part) (k j : LaneId) : s.WorksOn (s.follow j) k := by
  unfold Part.follow
  dsimp only
  split
  · next rests =>
    have shown := restState_resting s j
    obtain rfl | rfl := eq_or_eq_other j k
    · refine enterState_works s j (fun judged => ?_) rfl rfl rfl rfl
      rw [Lane.judged] at judged
      rcases shown with e | e <;> simp [e] at judged
    · refine worksOn_setOther (calm_aside _ _ _ ?_) fun shut => ?_
      · exact shown.imp id .inl
      · obtain ⟨-, empty | idle⟩ := rests
        · rw [shut.state] at empty; cases empty
        · rw [shut.state] at idle; cases idle
  · exact worksOn_refl s k

/-- A lane on which the volume logic has nothing to do (R114, R117, R118). -/
def Lane.settled (l : Lane) : Prop := l.calm = true ∨ ¬ l.judged

theorem volumeStep_settled {s : Part} {k : LaneId} (h : (s.lane k).settled) : s.volumeStep k = s ∧ s.eovStep k = s := by
  rcases h with calm | away
  · exact ⟨volumeStep_calm s k calm, eovStep_calm s k calm⟩
  · have append : (s.lane k).state ≠ .append := fun e => away (.inl e)
    have closing : (s.lane k).state ≠ .closing := fun e => away (.inr (.inl e))
    have eov : s.eovStep k = s := by
      unfold Part.eovStep
      dsimp only
      split
      · next e _ => exact absurd e closing
      · rfl
    refine ⟨?_, eov⟩
    unfold Part.volumeStep
    dsimp only
    split
    · next e _ => exact absurd e append
    · exact eov

/-- With nothing for the volume logic to do on either lane it does nothing (R114, R117, R118). -/
theorem volumeLogic_settled (old : Part) {s : Part} (again : Bool) (h : ∀ j, (s.lane j).settled) : Part.volumeLogic old s again = s := by
  have judged : s.judgeVolumes = s := by
    rw [Part.judgeVolumes, (volumeStep_settled (h .l0)).1, (volumeStep_settled (h .l1)).1, (volumeStep_settled (h .l0)).2]
  have waits : ∀ j, ((s.lane j).state == .waitingMedia) = false := fun j => by
    rw [beq_eq_false_iff_ne]
    rcases h j with calm | away
    · simp only [Lane.calm, Bool.and_eq_true, bne_iff_ne] at calm
      exact calm.1.2
    · exact fun e => away (.inr (.inr e))
  have rechosen : s.rechoose = s := by simp [Part.rechoose, waits]
  simp only [Part.volumeLogic, judged, rechosen, ite_self]

/-- Beside a calm lane the end of an event is the work of lane `k`'s read jobs, where the volume logic has nothing to do on it. -/
theorem settle_beside (old : Part) {s : Part} (again : Bool) {k : LaneId} (away : ¬ (s.lane k).judged)
    (calm : (s.lane k.other).calm = true) :
    settle old s again = ((((s.verifyStep k).restoreStep k).loanStep k).follow .l0).follow .l1 := by
  have jobs := (verifyStep_works s k).trans (restoreStep_works _ k)
  have loans := jobs.trans (loanStep_works _ k).toWorks
  have still := jobs.calm calm
  have lent := loans.calm calm
  have done : ∀ i, (((s.verifyStep k).restoreStep k).lane i).settled := both_lanes (k := k) (.inr (away ∘ jobs.judged)) (.inl still)
  have logic := volumeLogic_settled old again done
  simp only [settle]
  cases k with
  | l0 =>
    rw [verifyStep_calm _ .l1 still, restoreStep_calm _ .l1 still, logic, loanStep_calm _ .l1 lent]
  | l1 =>
    rw [verifyStep_calm s .l0 calm, restoreStep_calm s .l0 calm, logic, loanStep_calm _ .l0 still]

/-- Where the read jobs of lane `k` leave nothing more to settle, the end of an event is their step. -/
theorem settle_step (old : Part) {s x : Part} (again : Bool) {k : LaneId} (calm : (s.lane k.other).calm = true)
    (step : (s.verifyStep k).restoreStep k = x) (quiet : x.quiet = true) : settle old s again = x := by
  have rest := settle_quiet old x again quiet
  simp only [Part.quiet, Bool.and_eq_true] at quiet
  obtain ⟨⟨⟨zero, one⟩, -⟩, -⟩ := quiet
  simp only [settle, verifyStep_calm x _ zero, verifyStep_calm x _ one, restoreStep_calm x _ zero, restoreStep_calm x _ one] at rest ⊢
  cases k with
  | l0 => rw [step, verifyStep_calm x _ one, restoreStep_calm x _ one]; exact rest
  | l1 => rw [verifyStep_calm s .l0 calm, restoreStep_calm s .l0 calm, step]; exact rest

/-! ## A shut lane at the end of an event (R107, R113) -/

/-- `t` is `s` with lane `k` the same but for its run and its queue, and with no occupancy changed. -/
structure Part.Spares (s t : Part) (k : LaneId) : Prop where
  lane : (t.lane k).outside = (s.lane k).outside
  occ : ∀ p, (t.loc p).occ = (s.loc p).occ

theorem Part.Spares.trans {s t u : Part} {k : LaneId} (h : s.Spares t k) (g : t.Spares u k) : s.Spares u k :=
  ⟨g.lane.trans h.lane, fun p => (g.occ p).trans (h.occ p)⟩

theorem Part.Spares.shut {s t : Part} {k : LaneId} (h : s.Spares t k) (shut : (s.lane k).Shut) : (t.lane k).Shut :=
  shut.of_outside h.lane

theorem spares_of_lane {s t : Part} {k : LaneId} (lane : t.lane k = s.lane k) (occ : ∀ p, (t.loc p).occ = (s.loc p).occ) :
    s.Spares t k := ⟨by rw [lane], occ⟩

theorem spares_refl (s : Part) (k : LaneId) : s.Spares s k := spares_of_lane rfl fun _ => rfl

theorem spares_setOther (s : Part) (k : LaneId) (l : Lane) : s.Spares (s.setLane k.other l) k :=
  spares_of_lane (lane_other_setLane s k l) fun _ => rfl

/-- Work of the other lane's read jobs spares a shut lane. -/
theorem spares_of_works {s t : Part} {k : LaneId} (works : s.Works t k.other) (shut : (s.lane k).Shut) : s.Spares t k := by
  have spared := works.shut
  rw [laneId_other_other] at spared
  exact ⟨spared shut, works.occ⟩

theorem spares_modOther (s : Part) (k : LaneId) (f : Lane → Lane) : s.Spares (s.modLane k.other f) k := spares_setOther s k _

theorem handBlock_spares (b : Nat) (s : Part) (k j : LaneId) : s.Spares (s.handBlock b j) k := by
  unfold Part.handBlock
  obtain rfl | rfl := eq_or_eq_other j k
  · exact ⟨by rw [lane_modLane_same]; rfl, fun _ => rfl⟩
  · exact Part.Spares.trans (t := s.setBuffer b _) (spares_of_lane rfl fun _ => rfl) (spares_modOther _ k _)

theorem closeBlock_spares (s : Part) (k j : LaneId) : s.Spares (s.closeBlock j) k := by
  have emptied : ∀ t : Part, t.Spares (t.modAsm j fun a => { a with openBlock := none, timer := none }) k :=
    fun t => spares_of_lane rfl fun _ => rfl
  unfold Part.closeBlock
  split
  · exact spares_refl s k
  · dsimp only
    refine Part.Spares.trans ?_ (emptied _)
    exact List.foldlRecOn (motive := fun t => s.Spares t k) _ _ (spares_of_lane rfl fun _ => rfl)
      fun t spares i _ => spares.trans (handBlock_spares _ t k i)

theorem mirror_works (s : Part) (k : LaneId) (f : SpanEntry → SpanEntry) : s.WorksOn (s.mirror k f) k := by
  obtain ⟨lanes, -, -, library⟩ := mirror_views s k f
  exact worksOn_of_lanes k (fun j => congrArg (fun l => l.get j) lanes) fun p => congrArg (fun l : Library => (l.records[p]).occ) library

theorem requeued_works (s : Part) (k j : LaneId) (sent : List SentEntry) : s.WorksOn (s.requeued j sent) k := by
  refine worksOn_of_lanes k (fun i => requeued_lane s j i _) fun p => ?_
  refine foldl_view (fun q => (q.loc p).occ) (fun s y => match y.kind with
    | .data b => s.setCopy j b .queued
    | _ => s) (fun s y => ?_) sent s
  split <;> rfl

/-- A lane's volume abandoned, step by step (R121). -/
theorem abandon_steps (s : Part) (k : LaneId) (cause : Option SuspectCause) : ∃ v t,
    (s.requeued k (s.lane k).sent).setLane k { s.lane k with
      serving := v, pending := none, owedEov := none, queue := backOf (s.lane k).sent 0 ++ (s.lane k).queue, sent := [] } = t
    ∧ s.abandon k cause = (((if (s.lane k).volumeOpen then
        (t.markChosen k (if cause.isSome then .suspect else .full)).mirror k fun e => { e with
          mirror := if cause.isSome then .suspect else .full, cause := cause.getD .none }
        else t.markChosen k .suspect).leaveVolume k).carry k).startUnload k := by
  obtain ⟨v, dropped⟩ : ∃ v, ((s.releaseServed k).dropPending k).modLane k (fun l => { l with owedEov := none })
      = s.setLane k { s.lane k with serving := v, pending := none, owedEov := none } := by
    rw [releaseServed_eq, Part.dropPending, modLane_setLane, modLane_setLane]
    exact ⟨_, rfl⟩
  have back := putBack_eq s k { s.lane k with serving := v, pending := none, owedEov := none } 0
  refine ⟨v, _, rfl, ?_⟩
  unfold Part.abandon
  simp only [dropped, back, lane_setLane_same]
  cases cause <;> rfl

theorem abandon_works (s : Part) (k : LaneId) (cause : Option SuspectCause) : s.WorksOn (s.abandon k cause) k := by
  obtain ⟨v, t, forsaken, same⟩ := abandon_steps s k cause
  have first : s.WorksOn t k := by
    rw [← forsaken]
    refine (requeued_works s k k _).trans (worksOn_keeping ?_ ?_ ?_ ?_ ?_) <;> rw [requeued_lane]
  have carries : ∀ u : Part, u.WorksOn (u.carry k) k := fun u => worksOn_keeping rfl rfl rfl rfl rfl
  have left : ∀ u : Part, u.WorksOn (((u.leaveVolume k).carry k).startUnload k) k := fun u =>
    ((leaveVolume_works u k).trans (carries _)).trans (startUnload_works _ k)
  rw [same]
  refine first.trans (Part.WorksOn.trans ?_ (left _))
  split
  · exact (markChosen_works t k _).trans (mirror_works _ k _)
  · exact markChosen_works t k _

theorem earlyWarning_spares {s : Part} {k : LaneId} (shut : (s.lane k).Shut) : s.Spares (s.earlyWarning k.other) k := by
  obtain ⟨t, closed⟩ : ∃ t, s.closeRequest k.other = t := ⟨_, rfl⟩
  have first : s.Spares t k := closed ▸ closeBlock_spares s k _
  have state : (((t.setLane k.other (t.lane k.other).warned).lane k.other.other).state == .append) = false := by
    rw [laneId_other_other, lane_other_setLane, (first.shut shut).state]
    rfl
  unfold Part.earlyWarning
  simp only [closed, warned_eq, state, Bool.and_false, Bool.false_eq_true, if_false]
  exact first.trans (spares_setOther t k _)

theorem eovStep_spares {s : Part} {k : LaneId} (shut : (s.lane k).Shut) (j : LaneId) : s.Spares (s.eovStep j) k := by
  obtain rfl | rfl := eq_or_eq_other j k
  · rw [(volumeStep_settled (.inr fun judged => by
      rcases judged with e | e | e <;> rw [shut.state] at e <;> cases e)).2]
    exact spares_refl s j
  · have pends : ∀ (t : Part) (q r : Nat), t.Spares (t.makeEov k.other q r) k := fun t q r => spares_setOther t k _
    unfold Part.eovStep
    dsimp only
    split
    · split
      · split
        · exact spares_of_works (abandon_works s k.other none).toWorks shut
        · split
          · exact spares_refl s k
          · exact pends s _ _
      · split
        · exact spares_refl s k
        · obtain ⟨t, closed⟩ : ∃ t, (s.boundStreams (if s.twin.on then s.twin.primary else k.other)).foldl Part.closeOpenSegment s = t :=
            ⟨_, rfl⟩
          have first : s.Spares t k := by
            rw [← closed]
            refine spares_of_lane (closeSegments_lane _ s k) fun p => ?_
            refine foldl_view (fun q => (q.loc p).occ) Part.closeOpenSegment (fun s i => ?_) _ s
            unfold Part.closeOpenSegment Part.closeSegment Part.offer
            split
            · split <;> rfl
            · rfl
          rw [closed]
          exact (first.trans (pends t _ _)).trans (spares_setOther _ k _)
    · exact spares_refl s k

theorem volumeStep_spares {s : Part} {k : LaneId} (shut : (s.lane k).Shut) (j : LaneId) : s.Spares (s.volumeStep j) k := by
  obtain rfl | rfl := eq_or_eq_other j k
  · rw [(volumeStep_settled (.inr fun judged => by
      rcases judged with e | e | e <;> rw [shut.state] at e <;> cases e)).1]
    exact spares_refl s j
  · unfold Part.volumeStep
    dsimp only
    split
    · split
      · have warned := earlyWarning_spares shut
        exact warned.trans (eovStep_spares (warned.shut shut) _)
      · exact eovStep_spares shut _
    · exact eovStep_spares shut _

theorem judgeVolumes_spares {s : Part} {k : LaneId} (shut : (s.lane k).Shut) : s.Spares s.judgeVolumes k := by
  have zero := volumeStep_spares shut .l0
  have one := zero.trans (volumeStep_spares (zero.shut shut) .l1)
  exact one.trans (eovStep_spares (one.shut shut) .l0)

theorem setLimits_spares (s : Part) (g : Nat → Nat → Nat) (k : LaneId) : s.Spares (s.setLimits g) k := by
  obtain ⟨r, same⟩ := setLimits_lane s g k
  refine ⟨by rw [same]; rfl, fun p => ?_⟩
  unfold Part.setLimits
  dsimp only
  split <;> split <;> rfl

theorem enterLabelling_spares (s : Part) (k : LaneId) : s.Spares (s.enterLabelling k.other) k := by
  unfold Part.enterLabelling
  split
  · exact spares_modOther s k _
  · exact spares_refl s k

/-- A record that keeps its occupancy. -/
theorem setLoc_spares {s : Part} {p : Loc} {r : LocRecord} (k : LaneId) (same : r.occ = (s.loc p).occ) : s.Spares (s.setLoc p r) k :=
  ⟨rfl, (setLoc_works s k p r same).occ⟩

theorem latch_spares (s : Part) (x : Cond) (k : LaneId) : s.Spares (s.latch x) k := spares_of_lane rfl fun _ => rfl

theorem touch_spares (s : Part) (x : Section) (k : LaneId) : s.Spares (s.touch x) k := spares_of_lane rfl fun _ => rfl

/-- The chosen cartridge is labelled, fetched or waits for the bay (R114, R115). -/
theorem bringChosen_spares {s : Part} {k : LaneId} (shut : (s.lane k).Shut) (p : Loc) (l : Label) :
    s.Spares (if p = bay k.other then s.enterLabelling k.other
      else if (s.loc (bay k.other)).occ = .occupied then s.startUnload k.other
      else (s.modLane k.other (fun x => { x with state := .loading })).request k.other (.load k.other p l)) k := by
  split
  · exact enterLabelling_spares s k
  · split
    · exact spares_modOther s k _
    · have loading := spares_modOther s k fun x => { x with state := .loading }
      exact loading.trans (spares_of_works (request_works _ _ _).toWorks (loading.shut shut))

theorem chooseScratch_spares {s : Part} {k : LaneId} (shut : (s.lane k).Shut) : s.Spares (s.chooseScratch k.other) k := by
  obtain ⟨t, unnamed⟩ : ∃ t, s.modLane k.other (fun l => { l with run := { l.run with namedSlot := 0 } }) = t := ⟨_, rfl⟩
  have first : s.Spares t k := unnamed ▸ spares_modOther s k _
  have brings : ∀ (y : Part) (p : Loc) (l : Label), s.Spares y k → s.Spares _ k :=
    fun y p l spares => spares.trans (bringChosen_spares (spares.shut shut) p l)
  unfold Part.chooseScratch
  simp only [unnamed]
  split
  · refine brings _ _ _ ?_
    refine Part.Spares.trans ?_ (setLimits_spares _ (fun _ n => n) k)
    refine Part.Spares.trans ?_ (spares_modOther _ k _)
    refine first.trans (Part.Spares.trans ?_ (touch_spares _ .map k))
    exact setLoc_spares k rfl
  · exact (first.trans (spares_modOther t k _)).trans (latch_spares _ .noScratch k)

theorem rechoose_spares {s : Part} {k : LaneId} (shut : (s.lane k).Shut) : s.Spares s.rechoose k := by
  have choose : ∀ (t : Part) (j : LaneId), s.Spares t k →
      s.Spares (if (t.lane j).state == .waitingMedia then t.chooseScratch j else t) k := fun t j spares => by
    split
    · next waits =>
      have other := spares.shut shut
      obtain rfl | rfl := eq_or_eq_other j k
      · rw [other.state] at waits; cases waits
      · exact spares.trans (chooseScratch_spares other)
    · exact spares
  unfold Part.rechoose
  dsimp only
  split
  · exact choose _ _ (choose _ _ (spares_of_lane rfl fun _ => rfl))
  · exact choose _ _ (choose _ _ (spares_refl s k))

theorem volumeLogic_spares (old : Part) {s : Part} (again : Bool) {k : LaneId} (shut : (s.lane k).Shut) :
    s.Spares (Part.volumeLogic old s again) k := by
  have judged := judgeVolumes_spares shut
  have chosen := judged.trans (rechoose_spares (judged.shut shut))
  unfold Part.volumeLogic
  dsimp only
  split
  · exact chosen.trans (judgeVolumes_spares (chosen.shut shut))
  · exact judged

/-! ## The whole end of an event -/

theorem verifyStep_spares {s : Part} {k : LaneId} (shut : (s.lane k).Shut) (j : LaneId) : s.Spares (s.verifyStep j) k := by
  obtain rfl | rfl := eq_or_eq_other j k
  · rw [verifyStep_of_none shut.verify]
    exact spares_refl s j
  · exact spares_of_works (verifyStep_works s k.other) shut

theorem restoreStep_spares {s : Part} {k : LaneId} (shut : (s.lane k).Shut) (j : LaneId) : s.Spares (s.restoreStep j) k := by
  obtain rfl | rfl := eq_or_eq_other j k
  · rw [restoreStep_of_none shut.restore]
    exact spares_refl s j
  · exact spares_of_works (restoreStep_works s k.other) shut

theorem loanStep_spares {s : Part} {k : LaneId} (shut : (s.lane k).Shut) (j : LaneId) : s.Spares (s.loanStep j) k := by
  obtain rfl | rfl := eq_or_eq_other j k
  · rw [show s.loanStep j = s from if_neg fun lent => shut.loan lent.1]
    exact spares_refl s j
  · exact spares_of_works (loanStep_works s k.other).toWorks shut

theorem follow_spares {s : Part} {k : LaneId} (shut : (s.lane k).Shut) (j : LaneId) : s.Spares (s.follow j) k :=
  spares_of_works (follow_works s k.other j).toWorks shut

/-- The end of an event leaves a shut lane so, and every occupancy (R107, R113). -/
theorem settle_shut (old : Part) {s : Part} (again : Bool) {k : LaneId} (shut : (s.lane k).Shut) :
    s.Spares (settle old s again) k := by
  have jobs : ∀ {t : Part} (j : LaneId), s.Spares t k → s.Spares ((t.verifyStep j).restoreStep j) k := fun j spares => by
    have verified := spares.trans (verifyStep_spares (spares.shut shut) j)
    exact verified.trans (restoreStep_spares (verified.shut shut) j)
  have both := jobs .l1 (jobs .l0 (spares_refl s k))
  have logic := both.trans (volumeLogic_spares old again (both.shut shut))
  have lent := logic.trans (loanStep_spares (logic.shut shut) .l0)
  have loans := lent.trans (loanStep_spares (lent.shut shut) .l1)
  have first := loans.trans (follow_spares (loans.shut shut) .l0)
  exact first.trans (follow_spares (first.shut shut) .l1)

end Sys2Proof.Machine
end

section
/-! SUPPORT. Orders delivered in a header read, and the short returns END, FAULT and UNLOADED (R87, R88, R92, R94 to R98, R121,
R156 to R158, R169, R170, R173, R174). Settles O18. -/

namespace Sys2Proof.Machine

/-! ## A header read delivers an order (R87, R88, R92) -/

/-- The range of sequences that an order seeks, none for an UNLOAD. -/
def Order.range : Order → Option (Nat × Nat)
  | .seek a b => some (a, b)
  | _ => none

/-- The header that lane `k` serves an order with (R89). -/
def Order.header (o : Order) (k : LaneId) : List Byte :=
  orderHeader (if o.range.isSome then 0x10 else 0x11) ((o.range.map (·.1)).getD 0) ((o.range.map (·.2)).getD 0) k

theorem Order.header_length (o : Order) (k : LaneId) : (o.header k).length = 32 := by
  simp [Order.header, orderHeader, markerBlock, zeros, leBytes]

/-- A serving of an order, stamped with the order's header (R89). -/
structure Serving.Serves (v : Serving) (o : Order) (k : LaneId) : Prop where
  item : v.item = match o.range with
    | some (a, b) => .seek a b
    | none => .unload
  committed : v.committed = true
  header : v.header = o.header k

/-- A lane with a SEEK or an UNLOAD pending chooses it (R87). -/
theorem chooseServe_order {s : Part} {k : LaneId} {o : Order} (held : (s.lane k).held = false) (working : (s.lane k).state ≠ .fault)
    (pending : (s.lane k).pending = some o) (order : o = .unload ∨ ∃ a b, o = .seek a b) :
    ∃ v : Serving, v.Serves o k
      ∧ s.chooseServe k = s.setLane k { s.lane k with serving := some v, nextServing := (s.lane k).nextServing + 1 } := by
  rcases order with rfl | ⟨a, b, rfl⟩
  · have item : (s.lane k).chooseItem = .unload := by simp [Lane.chooseItem, held, working, pending]
    exact ⟨s.stamp k .unload, ⟨rfl, rfl, rfl⟩, by rw [Part.chooseServe, item]; rfl⟩
  · have item : (s.lane k).chooseItem = .seek a b := by simp [Lane.chooseItem, held, working, pending]
    exact ⟨s.stamp k (.seek a b), ⟨rfl, rfl, rfl⟩, by rw [Part.chooseServe, item]; rfl⟩

/-- The header read of an order served delivers it (R92). -/
theorem serveRead_order {s : Part} {k : LaneId} {o : Order} {v : Serving} (id : Nat) (serves : v.Serves o k)
    (serving : (s.lane k).serving = some v) :
    ∃ w : Serving, w.next = 32 ∧ w.committed = false ∧ s.serveRead k id 0 4 = (s.okay id (o.header k)).setLane k { s.lane k with
      serving := some w, pending := none, outstanding := some ⟨o.range, some ⟨s.now, 60000000⟩⟩ } := by
  have bytes : v.bytes 0 32 0 [] = o.header k := by
    rw [bytes_header (by rw [serves.header, o.header_length]), serves.header]
  have now : (s.okay id (o.header k)).now = s.now := by
    unfold Part.okay
    split <;> rfl
  have item := serves.item
  cases sought : o.range with
  | none =>
    rw [sought] at item
    simp only at item
    refine ⟨{ v with next := 32, timer := none, committed := false }, rfl, rfl, ?_⟩
    simp [Part.serveRead, serving, item, Part.answerSend, bytes, serves.committed, Part.delivered, Part.modLane, okay_lane, Part.timer,
      now, Config.second]
  | some r =>
    rw [sought] at item
    simp only at item
    refine ⟨{ v with next := 32, timer := none, committed := false }, rfl, rfl, ?_⟩
    simp [Part.serveRead, serving, item, Part.answerSend, bytes, serves.committed, Part.delivered, Part.modLane, okay_lane, Part.timer,
      now, Config.second]

/-- A pending SEEK or UNLOAD is what the lane serves next, and its header read delivers it (R87, R92). -/
theorem sendRead_delivers {s : Part} {t : Txn} {k : LaneId} {o : Order} (kind : s.classify t = .send k 0) (beats : t.beats = 4)
    (alone : s.bus.waiting = []) (held : (s.lane k).held = false) (working : (s.lane k).state ≠ .fault)
    (free : (s.lane k).committed = false) (pending : (s.lane k).pending = some o)
    (order : o = .unload ∨ ∃ a b, o = .seek a b) :
    ∃ v : Serving, v.next = 32 ∧ v.committed = false
      ∧ s.clientTransaction t = (s.setLane k { s.lane k with
          serving := some v, nextServing := (s.lane k).nextServing + 1, pending := none
          outstanding := some ⟨o.range, some ⟨s.now, 60000000⟩⟩ }).acceptedAs t (.ready ⟨t.tag, true, none, o.header k⟩) none := by
  obtain ⟨v, serves, chosen⟩ := chooseServe_order (s := (s.accept t).2) held working pending order
  obtain ⟨l, here⟩ : ∃ l, ({ s.lane k with serving := some v, nextServing := (s.lane k).nextServing + 1 } : Lane) = l := ⟨_, rfl⟩
  have chosen : (s.accept t).2.chooseServe k = (s.accept t).2.setLane k l := by rw [chosen, ← here]; rfl
  obtain ⟨w, next, released, served⟩ := serveRead_order (s := (s.accept t).2.setLane k l) s.bus.nextId serves
    (by rw [lane_setLane_same, ← here])
  refine ⟨w, next, released, ?_⟩
  have okayed := accept_okay (s.setLane k l) t (fresh_of_alone (s.setLane k l) alone) (o.header k)
  have uncommitted : ¬ ((s.accept t).2.lane k).committed = true := by
    rw [show (s.accept t).2.lane k = s.lane k from rfl, free]
    exact Bool.false_ne_true
  rw [clientTransaction_send kind, beats, Part.sendRead, if_pos rfl, if_neg uncommitted, chosen, served]
  refine (congrArg (fun p : Part => p.setLane k _) okayed).trans ?_
  rw [lane_setLane_same, ← here]
  cases k <;> rfl

/-- The header read of a pending order, as an event (R87, R88, R92). -/
theorem order_delivered {s : State} {t : Txn} {k : LaneId} {o : Order} (high : s.pins.resetLow = false)
    (kind : s.classify t = .send k 0) (beats : t.beats = 4) (alone : s.bus.waiting = []) (held : (s.lane k).held = false)
    (working : (s.lane k).state ≠ .fault) (free : (s.lane k).committed = false) (pending : (s.lane k).pending = some o)
    (order : o = .unload ∨ ∃ a b, o = .seek a b) (quiet : s.quiet = true) :
    ∃ (u : State) (v : Serving), exec (.sendRead t) s = .next u ∧ u.pending = s.pending
      ∧ u.blocks = (s.setLane k { s.lane k with
          serving := some v, nextServing := (s.lane k).nextServing + 1, pending := none
          outstanding := some ⟨o.range, some ⟨s.now, 60000000⟩⟩ }).blocks
      ∧ v.next = 32 ∧ v.committed = false ∧ u.unit.latched = s.unit.latched
      ∧ u.bus.answered = s.bus.answered ++ [⟨t.tag, true, none, o.header k⟩] := by
  obtain ⟨v, next, released, effect⟩ := sendRead_delivers (s := s.toPart) kind beats alone held working free pending order
  obtain ⟨l, here⟩ : ∃ l, ({ s.lane k with
    serving := some v, nextServing := (s.lane k).nextServing + 1, pending := none
    outstanding := some ⟨o.range, some ⟨s.now, 60000000⟩⟩ } : Lane) = l := ⟨_, rfl⟩
  rw [here] at effect
  have calm : (s.setLane k l).quiet = s.quiet := by
    refine quiet_setLane ?_ (by rw [← here])
    rw [← here]
    rcases order with rfl | ⟨a, b, rfl⟩ <;> simp only [Lane.calm, Lane.eovUnderWay, pending] <;> rfl
  obtain ⟨u, moves, same, blocks, latched, -, answered⟩ := kindEvent_answers (exec_sendRead t s) high (by rw [kind]; rfl) effect alone
    (calm.trans quiet)
  exact ⟨u, v, moves, same, here ▸ blocks, next, released, latched, answered⟩

/-! ## Short returns (R94 to R98) -/

/-- A write that is a whole short return of a kind and a reason, to a lane not in FAULT (R94, R95). -/
structure ShortReturn (s : State) (t : Txn) (k : LaneId) (kind reason : Byte) : Prop where
  high : s.pins.resetLow = false
  window : s.classify t = .ret k 0
  alone : s.bus.waiting = []
  length : (enabledBytes t).length = 32
  head : (enabledBytes t).take 6 = [0x4B, 0x44, 0x53, 0x52, kind, reason]
  working : (s.lane k).state ≠ .fault

/-- The lane at a return's first byte: no return is in progress any more (R94). -/
def Lane.cleared (l : Lane) : Lane := { l with ret := none, cut := none }

/-- The reason byte that names a formatter fault (R97). -/
def FormatterFault.byte : FormatterFault → Byte
  | .media => 1
  | .noCartridge => 2
  | .isProtected => 3
  | .endOfMedia => 4

section Short
variable {s : State} {t : Txn} {k : LaneId} {kind reason : Byte} (h : ShortReturn s t k kind reason)
include h

theorem short_head : (enabledBytes t).take 4 = [0x4B, 0x44, 0x53, 0x52] ∧ byteAt (enabledBytes t) 4 = kind
    ∧ byteAt (enabledBytes t) 5 = reason := by
  have at' : ∀ i, i < 6 → byteAt (enabledBytes t) i = byteAt ((enabledBytes t).take 6) i := fun i low => by
    simp [byteAt, low]
  refine ⟨?_, ?_, ?_⟩
  · have taken : (enabledBytes t).take 4 = ((enabledBytes t).take 6).take 4 := by rw [List.take_take]; rfl
    rw [taken, h.head]
    rfl
  · rw [at' 4 (by decide), h.head]
    rfl
  · rw [at' 5 (by decide), h.head]
    rfl

/-- The kind of a short return by its two bytes (R94, R97). -/
theorem short_kind : (kind = 1 → returnKind (enabledBytes t) = some .ended)
    ∧ (∀ f : FormatterFault, kind = 2 → reason = f.byte → returnKind (enabledBytes t) = some (.faulted f))
    ∧ (kind = 3 → returnKind (enabledBytes t) = some .unloaded) := by
  obtain ⟨marker, four, five⟩ := short_head h
  rw [returnKind, marker, four, five, if_neg (by decide), if_pos rfl]
  refine ⟨?_, fun f => ?_, ?_⟩
  · rintro rfl
    rfl
  · rintro rfl rfl
    cases f <;> rfl
  · rintro rfl
    rfl

/-- A short return that the lane expects is answered OKAY and acted on (R94, R96). -/
theorem short_taken {x : ReturnKind} (is : returnKind (enabledBytes t) = some x) (size : x.size = 32)
    (expects : (s.lane k).expects (enabledBytes t) x = true) :
    ∃ r : Return, s.clientTransaction t = ((s.okayed t).setLane k (s.lane k).cleared).returnDone k r x := by
  have whole : (enabledBytes t).take 32 = enabledBytes t := List.take_of_length_le (by rw [h.length])
  have same : ({ s.lane k with ret := none, cut := none } : Lane).expects (enabledBytes t) x = true := by
    rw [← expects]
    cases x <;> rfl
  refine ⟨Return.add ⟨[], Fold.start, Fold.start⟩ (enabledBytes t), ?_⟩
  have bytes : (Return.add ⟨[], Fold.start, Fold.start⟩ (enabledBytes t)).bytes = enabledBytes t := rfl
  have okayed := accept_okay (s.modLane k fun l => { l with ret := none, cut := none }) t (fresh_of_alone s.toPart h.alone) []
  rw [clientTransaction_ret h.window]
  simp only [Part.returnWrite, if_true, bytes, h.length, Nat.lt_irrefl, if_false, whole, is, lane_modLane_same, size,
    show (s.accept t).2.lane k = s.lane k from rfl, same, Bool.or_true, if_true]
  refine (congrArg (fun p : Part => (p.modLane k fun l => { l with ret := none }).returnDone k
    (Return.add ⟨[], Fold.start, Fold.start⟩ (enabledBytes t)) x) okayed).trans (congrArg (fun p : Part => p.returnDone k _ x) ?_)
  cases k <;> rfl

end Short

/-! ## The event of a short return -/

/-- `p` is `s` with the transaction `t` answered OKAY, lane `k`'s section marked or not. -/
def Part.Answered (s p : Part) (t : Txn) (k : LaneId) : Prop := p = s.okayed t ∨ p = (s.okayed t).touch (.lane k)

theorem Part.Answered.views {s p : Part} {t : Txn} {k : LaneId} (h : s.Answered p t k) :
    p.frame = s.frame ∧ p.lanes = s.lanes ∧ p.library = s.library ∧ p.span = s.span := by
  rcases h with rfl | rfl <;> exact ⟨rfl, rfl, rfl, rfl⟩

/-- A calm lane beside the return's stays calm. -/
theorem Part.Answered.calm {s p : Part} {t : Txn} {k : LaneId} (h : s.Answered p t k) (l : Lane)
    (calm : (s.lane k.other).calm = true) : ((p.setLane k l).lane k.other).calm = true := by
  rw [lane_setLane_other, Part.lane, h.views.2.1]
  exact calm

theorem follow_both_working {s : Part} {k : LaneId} (working : (s.lane k).resting = false) :
    ((s.follow .l0).follow .l1).lane k = s.lane k := by
  have first := follow_working working .l0
  rw [follow_working (by rw [first]; exact working), first]

/-- A lane's event leaves what the end of the event makes of it, where that is quiet. -/
theorem leaves_of_settled {c : Instr} {s : State} {f : Part → Part} {x : Part} (named : exec c s = laneEvent s f)
    (high : s.pins.resetLow = false) (still : (f s.toPart).still = x.still)
    (settled : x.quiet = true → settle s.toPart (f s.toPart) false = x) : Leaves c s x := by
  obtain ⟨u, moves, pending, blocks, frame, issued, latched⟩ := event_blocks s (fun p => settle p (f p) false) high
  refine ⟨u, named.trans moves, pending, frame.trans ((frame_of_still (settle_still _ _ _)).trans (frame_of_still still)), fun quiet => ?_⟩
  rw [settled quiet] at blocks issued latched
  exact ⟨blocks, issued, latched⟩

section ReturnEvent
variable {s : State} {t : Txn} {k : LaneId} {kind reason : Byte} (h : ShortReturn s t k kind reason)
include h

/-- A return write whose effect settles in a lane leaves that lane. -/
theorem short_settles_lane {x : Part} {l : Lane} (effect : s.clientTransaction t = x) {p : Part} (answered : s.Answered p t k)
    (still : x.still = p.still) (settled : (p.setLane k l).quiet = true → settle s.toPart x false = p.setLane k l) :
    Leaves (.returnWrite t) s (s.setLane k l) := by
  obtain ⟨f, named⟩ : ∃ f : Part → Part, f = fun p => if returns (p.classify t) then p.clientTransaction t else p := ⟨_, rfl⟩
  have taken : f s.toPart = x := by
    rw [named, ← effect]
    dsimp only
    rw [h.window]
    exact if_pos rfl
  have leaves : Leaves (.returnWrite t) s (p.setLane k l) := by
    refine leaves_of_settled (f := f) (by rw [named]; rfl) h.high (by rw [taken]; exact still) fun quiet => ?_
    rw [taken]
    exact settled quiet
  rcases answered with rfl | rfl
  · exact leaves_of_accepted leaves
  · exact leaves_of_accepted (leaves_of_touched _ leaves)

/-- A return write whose effect is a lane leaves that lane. -/
theorem short_leaves {p : Part} (answered : s.Answered p t k) {l : Lane} (effect : s.clientTransaction t = p.setLane k l) :
    Leaves (.returnWrite t) s (s.setLane k l) := by
  exact short_settles_lane h effect answered rfl fun quiet => settle_quiet _ _ _ quiet

/-- What the next state shows after a return write. -/
theorem short_settles {x p : Part} (effect : s.clientTransaction t = x) (answered : s.Answered p t k) (still : x.still = p.still) :
    ∃ u : State, exec (.returnWrite t) s = .next u ∧ u.pending = s.pending ∧ u.frame = s.frame
      ∧ (∀ j, u.lane j = (settle s.toPart x false).lane j) ∧ (∀ q, u.loc q = (settle s.toPart x false).loc q)
      ∧ u.span = (settle s.toPart x false).span := by
  subst effect
  refine ⟨_, kindEvent_next (exec_returnWrite t s) h.high (by rw [h.window]; rfl), rfl, ?_, fun j => report_lane _ _ j,
    loc_of_library (report_library _ _), report_span _ _⟩
  rw [report_frame, frame_of_still (settle_still _ _ _)]
  exact (frame_of_still still).trans answered.views.1

end ReturnEvent

/-! ## END and the faults that end a chunk (R96 to R98, R158, R169) -/

/-- The formatter fault that a reason byte names (R97). -/
def reasonFault (reason : Byte) : FormatterFault :=
  if reason = 1 then .media else if reason = 2 then .noCartridge else if reason = 3 then .isProtected else .endOfMedia

/-- The lane with a last formatter fault (R97). -/
def Lane.showing (l : Lane) (f : Option FormatterFault) : Lane := { l with lastFault := f }

/-- The last formatter fault after a short return (R97). -/
def Lane.shows (l : Lane) (kind reason : Byte) : Option FormatterFault :=
  if kind = 2 then some (reasonFault reason) else l.lastFault

/-- FAULT with MEDIA or PROTECTED. -/
abbrev worn (kind reason : Byte) : Prop := kind = 2 ∧ (reason = 1 ∨ reason = 3)

/-- FAULT with END OF MEDIA. -/
abbrev full (kind reason : Byte) : Prop := kind = 2 ∧ reason = 4

/-- A lane has a SEEK outstanding. -/
abbrev Lane.seeks (l : Lane) : Prop := ∃ o, l.outstanding = some o ∧ o.seek ≠ none

theorem seeking_of {l : Lane} (seeks : l.seeks) : l.seeking = true := by
  obtain ⟨o, out, seek⟩ := seeks
  simp only [Lane.seeking, out]
  exact Option.isSome_iff_ne_none.mpr seek

/-- A formatter's fault is shown, and the lane's section marked (R97). -/
theorem show_fault (p : Part) (k : LaneId) (l : Lane) (f : FormatterFault) :
    ((p.setLane k l).modLane k fun l => { l with lastFault := some f }).touch (.lane k)
      = (p.touch (.lane k)).setLane k (l.showing (some f)) := by
  rw [modLane_setLane]
  rfl

/-- A FAULT but NO CARTRIDGE ends the chunk outstanding (R97). -/
theorem faultReturn_media {p : Part} {k : LaneId} {l : Lane} (sent : l.sent = []) (seeking : l.seeking = true) (f : FormatterFault)
    (other : f ≠ .noCartridge) : (p.setLane k l).faultReturn k f
      = ((p.touch (.lane k)).setLane k (l.showing (some f))).seekEnded k true (f == .endOfMedia) := by
  have busy : (!(l.showing (some f)).sent.isEmpty || (l.showing (some f)).seeking) = true := Bool.or_eq_true_iff.mpr (.inr seeking)
  have none : (l.showing (some f)).sent.isEmpty = true := by rw [show (l.showing (some f)).sent = [] from sent]; rfl
  unfold Part.faultReturn
  rw [show_fault]
  simp only [lane_setLane_same, if_pos busy, if_pos none]
  cases f
  · rfl
  · exact absurd rfl other
  · rfl
  · rfl

section Chunk
variable {s : State} {t : Txn} {k : LaneId} {kind reason : Byte} (h : ShortReturn s t k kind reason)
include h

/-- A FAULT return to anything sent or outstanding (R97). -/
theorem short_faults (f : FormatterFault) (fault : kind = 2) (named : reason = f.byte)
    (busy : (s.lane k).sent ≠ [] ∨ (s.lane k).outstanding ≠ none) :
    s.clientTransaction t = ((s.okayed t).setLane k (s.lane k).cleared).faultReturn k f := by
  obtain ⟨r, taken⟩ := short_taken h ((short_kind h).2.1 f fault named) rfl (by
    simp only [Lane.expects, Bool.or_eq_true, Bool.not_eq_true', List.isEmpty_eq_false_iff, Option.isSome_iff_ne_none]
    exact busy)
  exact taken

/-- The end of a chunk by END, MEDIA, PROTECTED or END OF MEDIA, as the job sees it (R96 to R98). -/
theorem short_ends (sent : (s.lane k).sent = []) (seeks : (s.lane k).seeks) :
    (kind = 1 → s.clientTransaction t = ((s.okayed t).setLane k
        ((s.lane k).cleared.showing ((s.lane k).shows kind reason))).seekEnded k false false)
    ∧ (worn kind reason ∨ full kind reason → s.clientTransaction t = (((s.okayed t).touch (.lane k)).setLane k
        ((s.lane k).cleared.showing ((s.lane k).shows kind reason))).seekEnded k true (decide (reason = 4))) := by
  have seeking := seeking_of seeks
  have faults : ∀ f : FormatterFault, kind = 2 → reason = f.byte → f ≠ .noCartridge → s.clientTransaction t
      = (((s.okayed t).touch (.lane k)).setLane k ((s.lane k).cleared.showing (some f))).seekEnded k true (f == .endOfMedia) :=
    fun f fault named other => by
      obtain ⟨o, out, -⟩ := seeks
      have busy : (s.lane k).outstanding ≠ none := by rw [out]; nofun
      exact (short_faults h f fault named (.inr busy)).trans (faultReturn_media (l := (s.lane k).cleared) sent seeking f other)
  refine ⟨fun ended => ?_, fun faulted => ?_⟩
  · obtain ⟨r, taken⟩ := short_taken h ((short_kind h).1 ended) rfl seeking
    have shown : (s.lane k).shows kind reason = (s.lane k).lastFault := by rw [Lane.shows, if_neg (by rw [ended]; decide)]
    rw [shown]
    exact taken
  · rcases faulted with ⟨fault, rfl | rfl⟩ | ⟨fault, rfl⟩
    · rw [Lane.shows, if_pos fault]
      exact faults .media fault rfl nofun
    · rw [Lane.shows, if_pos fault]
      exact faults .isProtected fault rfl nofun
    · rw [Lane.shows, if_pos fault]
      exact faults .endOfMedia fault rfl nofun

/-- The end of a chunk short of the end of media, or at it. -/
theorem chunk_ends (sent : (s.lane k).sent = []) (seeks : (s.lane k).seeks) :
    (kind = 1 ∨ worn kind reason → ∃ (p : Part) (fault : Bool), s.Answered p t k ∧ s.clientTransaction t = (p.setLane k
        ((s.lane k).cleared.showing ((s.lane k).shows kind reason))).seekEnded k fault false)
    ∧ (full kind reason → ∃ p : Part, s.Answered p t k ∧ s.clientTransaction t = (p.setLane k
        ((s.lane k).cleared.showing ((s.lane k).shows kind reason))).seekEnded k true true) := by
  obtain ⟨ends, faults⟩ := short_ends h sent seeks
  refine ⟨fun short => ?_, fun media => ?_⟩
  · rcases short with ended | fault
    · exact ⟨_, _, .inl rfl, ends ended⟩
    · have midway : decide (reason = 4) = false := decide_eq_false (by rcases fault.2 with e | e <;> rw [e] <;> decide)
      have taken := faults (.inl fault)
      rw [midway] at taken
      exact ⟨_, _, .inr rfl, taken⟩
  · have taken := faults (.inr media)
    rw [decide_eq_true media.2] at taken
    exact ⟨_, .inr rfl, taken⟩

end Chunk

/-! ## A chunk over (R158, R169, R170) -/

/-- The lane with its SEEK over and no chunk any more (R158). -/
def Lane.sought (l : Lane) : Lane := { l with outstanding := none, access := { l.access with chunk := none } }

/-- The restore with the sequences short of `stop` LOST and expected past them (R158). -/
def RestoreJob.ranTo (j : RestoreJob) (stop : Nat) : RestoreJob :=
  { j with lost := j.lost + (stop - j.expected), gap := j.gap || decide (j.expected < stop), expected := max j.expected stop }

/-- The verify job with `n` sequences short of `stop` LOST, expected past them, and the chunk counted (R169, R170). -/
def VerifyJob.ranTo (j : VerifyJob) (n stop : Nat) : VerifyJob :=
  { j with
    lost := j.lost + n, gaps := if n = 0 then j.gaps else Vector.replicate 8 true
    expected := max j.expected stop, chunks := j.chunks + 1 }

theorem VerifyJob.ran_to (j : VerifyJob) {n stop : Nat} (count : stop - j.expected - j.absent j.expected stop = n) :
    ({ j.lose j.expected stop with expected := max j.expected stop, chunks := j.chunks + 1 } : VerifyJob) = j.ranTo n stop := by
  rw [VerifyJob.lose_eq count]
  rfl

theorem endSeek_setLane (p : Part) (k : LaneId) (l : Lane) :
    ((p.setLane k l).endOrder k).modAccess k (fun a => { a with chunk := none }) = p.setLane k l.sought := by
  rw [Part.endOrder, modLane_setLane, Part.modAccess, modLane_setLane]
  rfl

/-- A restore's chunk over: what the SEEK's end leaves of the lane (R158). -/
theorem seekEnded_restore {p : Part} {k : LaneId} {l : Lane} {j : RestoreJob} {v : VolRecord} {a last : Nat} (fault media : Bool)
    (restore : l.restore = some j) (reads : j.phase = .reading ∨ j.phase = .waitingDest) (wants : j.cursor ≤ j.effLast)
    (chunk : l.access.chunk = some (a, last)) (volume : j.volumes[j.current]? = some v) :
    (p.setLane k l).seekEnded k fault media
      = p.setLane k { l.sought with restore := some (j.ranTo (if media then v.lastBlock + 1 else last + 1)) } := by
  have kept : l.sought.restore = some j := restore
  have restoring : (p.setLane k l.sought).restoring k = some j := by
    rw [Part.restoring, lane_setLane_same, kept]
    rcases reads with e | e <;> simp [e]
  have goesOn : (decide (j.phase = .ending) || j.satisfied) = false := by
    rcases reads with e | e <;> simp [e, RestoreJob.satisfied, wants]
  have apart : j.phase ≠ .identifying := by rcases reads with e | e <;> simp [e]
  have stop : (if media = true then (j.volumes[j.current]?).map (·.lastBlock) else l.access.chunk.map (·.2)).getD 0 + 1
      = if media then v.lastBlock + 1 else last + 1 := by
    rw [volume, chunk]
    cases media <;> rfl
  have ran : ∀ n, ({ j.lose j.expected n with expected := max j.expected n } : RestoreJob) = j.ranTo n := fun n => by
    rw [RestoreJob.lose_eq]
    rfl
  unfold Part.seekEnded
  simp only [lane_setLane_same, endSeek_setLane, restoring, if_neg apart, goesOn, Bool.false_eq_true, if_false, stop,
    modRestore_setLane, kept, Option.map_some, ran]

/-- A verify job's chunk over: what the SEEK's end leaves of the lane (R169, R170). -/
theorem seekEnded_verify {p : Part} {k : LaneId} {l : Lane} {j : VerifyJob} {a last n stop : Nat} (fault media : Bool)
    (waits : ∀ r, l.restore = some r → r.phase = .waitingVerify) (verify : l.verify = some j) (reads : j.phase = .reading)
    (chunk : l.access.chunk = some (a, last)) (reaches : (if media then j.verified else last) + 1 = stop)
    (count : stop - j.expected - j.absent j.expected stop = n) :
    (p.setLane k l).seekEnded k fault media = p.setLane k { l.sought with verify := some (j.ranTo n stop) } := by
  have kept : l.sought.verify = some j := verify
  have restoring : (p.setLane k l.sought).restoring k = none := by
    rw [Part.restoring, lane_setLane_same]
    cases restore : l.sought.restore with
    | none => rfl
    | some r => exact if_pos (waits r restore)
  have verifying : (p.setLane k l.sought).verifying k = some j := by
    simp only [Part.verifying, lane_setLane_same, kept, reads, reduceCtorEq, if_false]
  have stop' : (if media = true then j.verified else (l.access.chunk.map (·.2)).getD 0) + 1 = stop := by
    rw [chunk]
    exact reaches
  have apart : j.phase ≠ .identifying := by rw [reads]; nofun
  unfold Part.seekEnded
  simp only [lane_setLane_same, endSeek_setLane, restoring, verifying, if_neg apart, stop', modVerify_setLane, kept, Option.map_some,
    j.ran_to count]

/-! ## The next chunk (R158, R169) -/

/-- The lane with a short return taken that ends its chunk (R97, R158). -/
def Lane.chunkOver (l : Lane) (kind reason : Byte) : Lane := (l.cleared.showing (l.shows kind reason)).sought

/-- The lane with a SEEK pending for its next chunk (R158). -/
def Lane.seeksFrom (l : Lane) (a b : Nat) : Lane :=
  { l with pending := some (.seek a b), access := { l.access with chunk := some (a, b) } }

theorem seeksFrom_restore (l : Lane) (kind reason : Byte) (r : Option RestoreJob) (a b : Nat) :
    Lane.seeksFrom { l.chunkOver kind reason with restore := r } a b = { l with
      ret := none, cut := none, outstanding := none, pending := some (.seek a b)
      access := { l.access with chunk := some (a, b) }, lastFault := l.shows kind reason, restore := r } := by
  simp only [Lane.seeksFrom, Lane.chunkOver, Lane.sought, Lane.showing, Lane.cleared]

theorem seeksFrom_verify (l : Lane) (kind reason : Byte) (y : Option VerifyJob) (a b : Nat) :
    Lane.seeksFrom { l.chunkOver kind reason with verify := y } a b = { l with
      ret := none, cut := none, outstanding := none, pending := some (.seek a b)
      access := { l.access with chunk := some (a, b) }, lastFault := l.shows kind reason, verify := y } := by
  simp only [Lane.seeksFrom, Lane.chunkOver, Lane.sought, Lane.showing, Lane.cleared]

theorem makeSeek_setLane (p : Part) (k : LaneId) (l : Lane) (a b : Nat) : (p.setLane k l).makeSeek k a b = p.setLane k (l.seeksFrom a b) := by
  rw [Part.makeSeek, modLane_setLane, Part.modAccess, modLane_setLane]
  rfl

/-- No verify job has the lane: there is none, or it is suspended (R174). -/
abbrev Lane.unverified (l : Lane) : Prop := ∀ y, l.verify = some y → y.phase = .suspended

theorem verifyStep_unverified {p : Part} {k : LaneId} {l : Lane} (unverified : l.unverified) :
    (p.setLane k l).verifyStep k = p.setLane k l := by
  have none : (p.setLane k l).verifying k = none := by
    rw [Part.verifying, lane_setLane_same]
    cases verify : l.verify with
    | none => rfl
    | some y => exact if_pos (unverified y verify)
  rw [Part.verifyStep, none]

section NextChunk
variable {p : Part} {k : LaneId} {l : Lane}

/-- A restore in READING with its chunk over goes on by what is left of the volume (R158, R165). -/
theorem restoreStep_reading {j : RestoreJob} {v : VolRecord} (restore : l.restore = some j) (reading : j.phase = .reading)
    (wants : j.cursor ≤ j.effLast) (quiet : l.quiet = true) (volume : j.volumes[j.current]? = some v) :
    (p.setLane k l).restoreStep k = if j.expected ≤ v.lastBlock
      then p.setLane k (l.seeksFrom j.expected (min (j.expected + 63) v.lastBlock))
      else if j.volumes.length ≤ j.current + 1
      then ((p.setLane k l).modRestore k fun j => { j with phase := .ending }).endingStep k j
      else ((p.setLane k l).modRestore k fun j => { j with current := j.current + 1 }).fetchRestore k := by
  have restoring : (p.setLane k l).restoring k = some j := by
    simp only [Part.restoring, lane_setLane_same, restore, reading, reduceCtorEq, if_false]
  have goesOn : j.satisfied = false := by simp [RestoreJob.satisfied, wants]
  simp only [Part.restoreStep, restoring, lane_setLane_same, quiet, reading, volume, goesOn, makeSeek_setLane, Bool.not_true,
    Bool.false_eq_true, if_false, Bool.false_or, Bool.and_eq_true, decide_eq_true_eq]
  by_cases within : j.expected ≤ v.lastBlock
  · rw [if_neg (by omega), if_neg (by omega), if_pos within]
  · rw [if_neg within]
    by_cases only : j.volumes.length ≤ j.current + 1
    · rw [if_pos ⟨by omega, only⟩, if_pos only]
    · rw [if_neg (fun both => only both.2), if_pos (by omega), if_neg only]

/-- A verify job in READING with its chunk over goes on by what is left of the volume (R169, R173, R174). -/
theorem verifyStep_reading {j : VerifyJob} (verify : l.verify = some j) (reading : j.phase = .reading) (quiet : l.quiet = true) :
    (p.setLane k l).verifyStep k = if j.verified < j.expected then (p.setLane k l).completeVerify k
      else if l.restore.isSome then (p.setLane k l).suspendVerify k
      else p.setLane k (l.seeksFrom j.expected (min (j.expected + 63) j.verified)) := by
  have verifying : (p.setLane k l).verifying k = some j := by
    simp only [Part.verifying, lane_setLane_same, verify, reading, reduceCtorEq, if_false]
  have goesOn : ¬ (j.phase ≠ .reading ∨ l.quiet = false) := by simp [reading, quiet]
  simp only [Part.verifyStep, verifying, lane_setLane_same, if_neg goesOn, makeSeek_setLane]

end NextChunk

/-- The next volume of a restore is fetched: its figures (R155, R158). -/
theorem fetchRestore_figures {s : Part} {k : LaneId} {j : RestoreJob} {v : VolRecord} (restore : (s.lane k).restore = some j)
    (volume : j.volumes[j.current]? = some v) :
    ((s.fetchRestore k).lane k).restoreFigures = some (j.lost, j.current, v.firstBlock) := by
  obtain ⟨t, fetching⟩ : ∃ t, s.modRestore k (fun j => { j with phase := .fetching, expected := v.firstBlock }) = t := ⟨_, rfl⟩
  have figures : (t.lane k).restoreFigures = some (j.lost, j.current, v.firstBlock) := by
    rw [← fetching, Part.modRestore, lane_modLane_same, Lane.restoreFigures, restore]
    rfl
  have fetched := (fetch_works t k v.label).restored.trans figures
  simp only [Part.fetchRestore, restore, volume, fetching]
  split
  · next u r same =>
    rw [same] at fetched
    exact (endEarly_works u k r).restored.trans fetched
  · next u same =>
    rw [same] at fetched
    exact fetched

/-- A restore past the end of its volume goes on to the next one, or ends: its figures (R158, R165). -/
theorem restoreStep_past {p : Part} {k : LaneId} {l : Lane} {j : RestoreJob} {v : VolRecord} (restore : l.restore = some j)
    (reading : j.phase = .reading) (wants : j.cursor ≤ j.effLast) (quiet : l.quiet = true) (volume : j.volumes[j.current]? = some v)
    (past : v.lastBlock < j.expected) :
    (((p.setLane k l).restoreStep k).lane k).restoreFigures = some (j.lost, match j.volumes[j.current + 1]? with
      | some w => (j.current + 1, w.firstBlock)
      | none => (j.current, j.expected)) := by
  rw [restoreStep_reading restore reading wants quiet volume, if_neg (Nat.not_le.mpr past)]
  cases next : j.volumes[j.current + 1]? with
  | none =>
    rw [if_pos (List.getElem?_eq_none_iff.mp next), (endingStep_works _ k j).restored, modRestore_setLane, lane_setLane_same,
      Lane.restoreFigures, restore]
    rfl
  | some w =>
    have more : ¬ j.volumes.length ≤ j.current + 1 := fun all => by rw [List.getElem?_eq_none_iff.mpr all] at next; cases next
    rw [if_neg more, modRestore_setLane]
    exact fetchRestore_figures (j := { j with current := j.current + 1 }) (by rw [lane_setLane_same, restore]; rfl) next

/-! ## The end of the event after the read jobs' steps -/

section Beside
variable (old : Part) {x : Part} (again : Bool) {k : LaneId} (away : ¬ (x.lane k).judged) (calm : (x.lane k.other).calm = true)
include away calm

/-- What follows the steps of lane `k`'s read jobs is work of theirs that leaves their figures. -/
theorem settle_after : ((x.verifyStep k).restoreStep k).WorksOn (settle old x again) k := by
  rw [settle_beside old again away calm]
  exact ((loanStep_works _ k).trans (follow_works _ k .l0)).trans (follow_works _ k .l1)

theorem settle_works : x.Works (settle old x again) k :=
  ((verifyStep_works x k).trans (restoreStep_works _ k)).trans (settle_after old again away calm).toWorks

end Beside

/-! ## A restore's chunk over, as an event (R158) -/

/-- Where a chunk ends: after its last sequence, or at END OF MEDIA after the last one of all (R158, R169). -/
def stopsAt (kind reason : Byte) (last final stop : Nat) : Prop :=
  (kind = 1 ∨ worn kind reason) ∧ stop = last + 1 ∨ full kind reason ∧ stop = final + 1

theorem chunkOver_quiet {l : Lane} (kind reason : Byte) (buffer : l.buffer = none) (walk : l.access.walk = none) :
    (l.chunkOver kind reason).quiet = true := by
  have free : (l.chunkOver kind reason).buffer = none := buffer
  have idle : (l.chunkOver kind reason).access.walk = none := walk
  rw [Lane.quiet, free, idle]
  rfl

theorem reading_away {l : Lane} (state : l.state = .reading) : ¬ l.judged := by
  rintro (e | e | e) <;> rw [state] at e <;> cases e

section RestoreChunk
variable {s : State} {t : Txn} {k : LaneId} {kind reason : Byte} (h : ShortReturn s t k kind reason)
  (sent : (s.lane k).sent = []) (seeks : (s.lane k).seeks) {j : RestoreJob} {v : VolRecord} {a last : Nat}
  (restore : (s.lane k).restore = some j) (reads : j.phase = .reading ∨ j.phase = .waitingDest) (wants : j.cursor ≤ j.effLast)
  (chunk : (s.lane k).access.chunk = some (a, last)) (volume : j.volumes[j.current]? = some v) {stop : Nat}
  (stops : stopsAt kind reason last v.lastBlock stop)
include h sent seeks restore reads wants chunk volume stops

theorem restoreChunk_effect : ∃ p : Part, s.Answered p t k ∧ s.clientTransaction t
    = p.setLane k { (s.lane k).chunkOver kind reason with restore := some (j.ranTo stop) } := by
  obtain ⟨short, media⟩ := chunk_ends h sent seeks
  have ends := fun (p : Part) fault media => seekEnded_restore (p := p) (k := k)
    (l := (s.lane k).cleared.showing ((s.lane k).shows kind reason)) fault media restore reads wants chunk volume
  rcases stops with ⟨ended, rfl⟩ | ⟨full, rfl⟩
  · obtain ⟨p, fault, answered, effect⟩ := short ended
    exact ⟨p, answered, effect.trans (ends p fault false)⟩
  · obtain ⟨p, answered, effect⟩ := media full
    exact ⟨p, answered, effect.trans (ends p true true)⟩

/-- The end of a restore's chunk leaves its figures (R158). -/
theorem restoreChunk_leaves :
    Leaves (.returnWrite t) s (s.setLane k { (s.lane k).chunkOver kind reason with restore := some (j.ranTo stop) }) := by
  obtain ⟨p, answered, effect⟩ := restoreChunk_effect h sent seeks restore reads wants chunk volume stops
  exact short_leaves h answered effect

variable (reading : j.phase = .reading) (buffer : (s.lane k).buffer = none)
  (walk : (s.lane k).access.walk = none) (unverified : (s.lane k).unverified) (calm : (s.lane k.other).calm = true)
include reading buffer walk unverified calm

/-- With sequences left, the restore seeks its next chunk at the end of its last one (R158). -/
theorem restoreChunk_seeks (left : max j.expected stop ≤ v.lastBlock) :
    Leaves (.returnWrite t) s (s.setLane k (Lane.seeksFrom
      { (s.lane k).chunkOver kind reason with restore := some (j.ranTo stop) } (max j.expected stop)
      (min (max j.expected stop + 63) v.lastBlock))) := by
  obtain ⟨p, answered, effect⟩ := restoreChunk_effect h sent seeks restore reads wants chunk volume stops
  obtain ⟨m, chunked⟩ : ∃ m : Lane, { (s.lane k).chunkOver kind reason with restore := some (j.ranTo stop) } = m := ⟨_, rfl⟩
  rw [chunked] at effect ⊢
  have quiet : m.quiet = true := by rw [← chunked]; exact chunkOver_quiet kind reason buffer walk
  have other : ((p.setLane k m).lane k.other).calm = true := answered.calm m calm
  have next := restoreStep_reading (p := p) (k := k) (l := m) (j := j.ranTo stop) (by rw [← chunked]) reading wants quiet volume
  refine short_settles_lane h effect answered rfl fun still => settle_step _ _ other ?_ still
  rw [verifyStep_unverified (by rw [← chunked]; exact unverified)]
  exact next.trans (if_pos left)

/-- With no sequence left, the restore goes to its next volume or ends (R158, R165). -/
theorem restoreChunk_past (state : (s.lane k).state = .reading) (past : v.lastBlock < max j.expected stop) :
    ∃ u : State, exec (.returnWrite t) s = .next u ∧ u.pending = s.pending ∧ u.frame = s.frame
      ∧ (u.lane k).restoreFigures = some (j.lost + (stop - j.expected), match j.volumes[j.current + 1]? with
        | some w => (j.current + 1, w.firstBlock)
        | none => (j.current, max j.expected stop)) := by
  obtain ⟨p, answered, effect⟩ := restoreChunk_effect h sent seeks restore reads wants chunk volume stops
  obtain ⟨m, chunked⟩ : ∃ m : Lane, { (s.lane k).chunkOver kind reason with restore := some (j.ranTo stop) } = m := ⟨_, rfl⟩
  rw [chunked] at effect
  have quiet : m.quiet = true := by rw [← chunked]; exact chunkOver_quiet kind reason buffer walk
  have other : ((p.setLane k m).lane k.other).calm = true := answered.calm m calm
  have away : ¬ ((p.setLane k m).lane k).judged := by
    rw [lane_setLane_same, ← chunked]
    exact reading_away state
  have next := restoreStep_past (p := p) (k := k) (l := m) (j := j.ranTo stop) (by rw [← chunked]) reading wants quiet volume past
  obtain ⟨u, moves, pending, frame, lanes, -, -⟩ := short_settles h effect answered rfl
  have settled := (settle_after s.toPart false away other).restored
  rw [verifyStep_unverified (by rw [← chunked]; exact unverified), next, ← lanes] at settled
  exact ⟨u, moves, pending, frame, settled⟩

end RestoreChunk

/-! ## A verify job's chunk over, as an event (R169, R170, R173, R174) -/

/-- The last figures of a verify job that is over. -/
theorem lastVerify_of {l : Lane} {r : JobResult} {lost chunks expected : Nat} (gone : l.verify = none)
    (figures : l.verifyFigures = some (lost, chunks, expected)) (result : l.lastVerify.map (·.result) = some r) :
    l.lastVerify.map (fun y => (y.result, y.lost, y.chunks, y.expected)) = some (r, lost, chunks, expected) := by
  rw [Lane.verifyFigures, gone] at figures
  cases last : l.lastVerify with
  | none => rw [last] at result; cases result
  | some y =>
    rw [last] at result figures
    have same : y.result = r := Option.some.inj result
    have counts : (y.lost, y.chunks, y.expected) = (lost, chunks, expected) := Option.some.inj figures
    rw [Option.map_some, same, counts]

section VerifyChunk
variable {s : State} {t : Txn} {k : LaneId} {kind reason : Byte} (h : ShortReturn s t k kind reason)
  (sent : (s.lane k).sent = []) (seeks : (s.lane k).seeks) {j : VerifyJob} {a last : Nat}
  (waits : ∀ r, (s.lane k).restore = some r → r.phase = .waitingVerify) (verify : (s.lane k).verify = some j)
  (reading : j.phase = .reading) (chunk : (s.lane k).access.chunk = some (a, last)) {n stop : Nat}
  (stops : stopsAt kind reason last j.verified stop) (count : stop - j.expected - j.absent j.expected stop = n)
include h sent seeks waits verify reading chunk stops count

theorem verifyChunk_effect : ∃ p : Part, s.Answered p t k ∧ s.clientTransaction t
    = p.setLane k { (s.lane k).chunkOver kind reason with verify := some (j.ranTo n stop) } := by
  obtain ⟨short, media⟩ := chunk_ends h sent seeks
  have ends := fun (p : Part) fault media reaches => seekEnded_verify (p := p) (k := k) (stop := stop) (n := n)
    (l := (s.lane k).cleared.showing ((s.lane k).shows kind reason)) fault media waits verify reading chunk reaches count
  rcases stops with ⟨ended, same⟩ | ⟨full, same⟩
  · obtain ⟨p, fault, answered, effect⟩ := short ended
    exact ⟨p, answered, effect.trans (ends p fault false same.symm)⟩
  · obtain ⟨p, answered, effect⟩ := media full
    exact ⟨p, answered, effect.trans (ends p true true same.symm)⟩

/-- The end of a verify job's chunk leaves its figures (R169, R170). -/
theorem verifyChunk_leaves :
    Leaves (.returnWrite t) s (s.setLane k { (s.lane k).chunkOver kind reason with verify := some (j.ranTo n stop) }) := by
  obtain ⟨p, answered, effect⟩ := verifyChunk_effect h sent seeks waits verify reading chunk stops count
  exact short_leaves h answered effect

variable (buffer : (s.lane k).buffer = none) (walk : (s.lane k).access.walk = none) (calm : (s.lane k.other).calm = true)
include buffer walk calm

/-- With sequences left and no restore waiting, the verify job seeks its next chunk (R169). -/
theorem verifyChunk_seeks (left : max j.expected stop ≤ j.verified) (none : (s.lane k).restore = none) :
    Leaves (.returnWrite t) s (s.setLane k (Lane.seeksFrom
      { (s.lane k).chunkOver kind reason with verify := some (j.ranTo n stop) } (max j.expected stop)
      (min (max j.expected stop + 63) j.verified))) := by
  obtain ⟨p, answered, effect⟩ := verifyChunk_effect h sent seeks waits verify reading chunk stops count
  obtain ⟨m, chunked⟩ : ∃ m : Lane, { (s.lane k).chunkOver kind reason with verify := some (j.ranTo n stop) } = m := ⟨_, rfl⟩
  rw [chunked] at effect ⊢
  have quiet : m.quiet = true := by rw [← chunked]; exact chunkOver_quiet kind reason buffer walk
  have alone : m.restore = .none := by rw [← chunked]; exact none
  have next := verifyStep_reading (p := p) (k := k) (l := m) (j := j.ranTo n stop) (by rw [← chunked]) reading quiet
  have step := next.trans ((if_neg (Nat.not_lt.mpr left)).trans (if_neg (by rw [alone]; nofun)))
  refine short_settles_lane h effect answered rfl fun still => settle_step _ _ (answered.calm m calm) ?_ still
  rw [step]
  exact restoreStep_of_none (by rw [lane_setLane_same]; exact alone)

/-- The end of a verify job's chunk, whatever comes of the job: its figures, and with no sequence left its end with COMPLETE
(R169, R173, R174). -/
theorem verifyChunk_settles (state : (s.lane k).state = .reading) :
    ∃ u : State, (exec (.returnWrite t) s = .next u ∧ u.pending = s.pending ∧ u.frame = s.frame)
      ∧ (u.lane k).verifyFigures = some (j.lost + n, j.chunks + 1, max j.expected stop)
      ∧ (j.verified < max j.expected stop → (u.lane k).verify = none
        ∧ (u.lane k).lastVerify.map (·.result) = some .complete) := by
  obtain ⟨p, answered, effect⟩ := verifyChunk_effect h sent seeks waits verify reading chunk stops count
  obtain ⟨m, chunked⟩ : ∃ m : Lane, { (s.lane k).chunkOver kind reason with verify := some (j.ranTo n stop) } = m := ⟨_, rfl⟩
  rw [chunked] at effect
  have quiet : m.quiet = true := by rw [← chunked]; exact chunkOver_quiet kind reason buffer walk
  have other := answered.calm m calm
  have away : ¬ ((p.setLane k m).lane k).judged := by
    rw [lane_setLane_same, ← chunked]
    exact reading_away state
  have figures : ((p.setLane k m).lane k).verifyFigures = some (j.lost + n, j.chunks + 1, max j.expected stop) := by
    rw [lane_setLane_same, ← chunked]
    rfl
  obtain ⟨u, moves, pending, frame, lanes, -, -⟩ := short_settles h effect answered rfl
  have settled := (settle_works s.toPart false away other).figures
  rw [← lanes, figures] at settled
  refine ⟨u, ⟨moves, pending, frame⟩, settled, fun past => ?_⟩
  have next := verifyStep_reading (p := p) (k := k) (l := m) (j := j.ranTo n stop) (by rw [← chunked]) reading quiet
  obtain ⟨-, gone, complete⟩ := completeVerify_ends (s := p.setLane k m) (k := k) (by rw [lane_setLane_same, ← chunked]; rfl)
  have ended := ((restoreStep_works ((p.setLane k m).verifyStep k) k).trans (settle_after s.toPart false away other).toWorks).ended
  rw [next.trans (if_pos past), ← lanes] at ended
  obtain ⟨stays, same⟩ := ended gone
  exact ⟨stays, by rw [same, complete]⟩

/-- A verify job's figures after its chunk (R169, R174), and its end with COMPLETE where no sequence is left (R173). -/
theorem verifyChunk_goesOn (state : (s.lane k).state = .reading) :
    (∃ u : State, exec (.returnWrite t) s = .next u ∧ u.pending = s.pending ∧ u.frame = s.frame
      ∧ (u.lane k).verifyFigures = some (j.lost + n, j.chunks + 1, max j.expected stop))
    ∧ (j.verified < max j.expected stop → ∃ u : State, exec (.returnWrite t) s = .next u ∧ u.pending = s.pending ∧ u.frame = s.frame
      ∧ (u.lane k).verify = none ∧ (u.lane k).lastVerify.map (fun y => (y.result, y.lost, y.chunks, y.expected))
        = some (.complete, j.lost + n, j.chunks + 1, max j.expected stop)) := by
  obtain ⟨u, ⟨moves, pending, frame⟩, figures, complete⟩ :=
    verifyChunk_settles h sent seeks waits verify reading chunk stops count buffer walk calm state
  refine ⟨⟨u, moves, pending, frame, figures⟩, fun past => ⟨u, moves, pending, frame, ?_⟩⟩
  obtain ⟨gone, result⟩ := complete past
  exact ⟨gone, lastVerify_of gone figures result⟩

end VerifyChunk

/-! ## A verify job that ends by LANE FAULT (R107, R173) -/

theorem orphan_lane_other (s : Part) (k : LaneId) : (s.orphan k.other).lane k = s.lane k := by
  unfold Part.orphan
  split
  · split
    · exact endLending_lane s k
    · exact lane_other_setLane s k _
  · rfl

theorem dropAccess_verify (s : Part) (k : LaneId) : ((s.dropAccess k).lane k).verify = (s.lane k).verify := by
  unfold Part.dropAccess Part.clearUnpack
  dsimp only
  split
  · rw [orphan_lane_other, lane_modLane_same, lane_modLane_same]
  · rw [lane_modLane_same, lane_modLane_same]

theorem restoreOver_verify (s : Part) (k : LaneId) (r : JobResult) : ((s.restoreOver k r).lane k).verify = (s.lane k).verify := by
  have ended : ∀ m : RestoreJob, ((s.modLane k fun l => { l with restore := none, lastRestore := some m }).lane k).verify
      = (s.lane k).verify := fun m => by rw [lane_modLane_same]
  unfold Part.restoreOver
  split
  · rfl
  · dsimp only
    split
    · exact ended _
    · exact (dropAccess_verify _ k).trans (ended _)

theorem nameRestore_verify (s : Part) (k : LaneId) (r : RecResult) (rewrite : Bool) :
    ((s.nameRestore k r rewrite).lane k).verify = (s.lane k).verify := by
  have counted : ∀ (t : Part) (f : RestoreJob → RestoreJob), ((t.modRestore k f).lane k).verify = (t.lane k).verify := fun t f => by
    rw [Part.modRestore, lane_modLane_same]
  have reported : ∀ n m, ((s.reportOpen k n m r rewrite).lane k).verify = (s.lane k).verify := fun n m => by
    unfold Part.reportOpen
    split
    · dsimp only
      rw [counted]
      split
      · split <;> rfl
      · rfl
    · rfl
  unfold Part.nameRestore
  split
  · split
    · rw [Part.setSlot, lane_modLane_same]
      exact reported _ _
    · rfl
  · rfl

/-- A verify job ends with its lane's FAULT (R107, R173). -/
theorem endJobs_last {s : Part} {k : LaneId} (runs : (s.lane k).verify.isSome = true) :
    ((s.endJobs k .laneFault).lane k).lastVerify.map (·.result) = some .laneFault := by
  obtain ⟨t, kept, same⟩ : ∃ t : Part, (t.lane k).verify.isSome = true
      ∧ s.endJobs k .laneFault = (if JobResult.laneFault = .laneFault ∧ (t.verifying k).isSome = true then
          (t.decodings k).foldl (fun s (x : Fin 8 × Decoding) => s.nameVerify k x.1 .incomplete) t else t).verifyOver k .laneFault := by
    refine ⟨_, ?_, rfl⟩
    split
    · split
      · rw [restoreOver_verify, runs]
      · rw [restoreOver_verify]
        split
        · exact runs
        · rw [nameRestore_verify, runs]
    · exact runs
  obtain ⟨u, named⟩ : ∃ u : Part, (if JobResult.laneFault = .laneFault ∧ (t.verifying k).isSome = true then
      (t.decodings k).foldl (fun s (x : Fin 8 × Decoding) => s.nameVerify k x.1 .incomplete) t else t) = u := ⟨_, rfl⟩
  have running : (u.lane k).verify.isSome = true := by
    rw [← named]
    split
    · rw [nameAll_runs fun _ _ => .incomplete, kept]
    · exact kept
  obtain ⟨j, verify⟩ := Option.isSome_iff_exists.mp running
  rw [same, named, (verifyOver_last .laneFault verify).2]
  rfl

theorem laneFault_last {s : Part} {k : LaneId} {code : LaneCode} (other : (s.lane k).state ≠ .fault)
    (runs : (s.lane k).verify.isSome = true) :
    ((s.laneFault k code).lane k).lastVerify.map (·.result) = some .laneFault := by
  obtain ⟨t, left⟩ : ∃ t, (if code = .tableFull then (s.takenBack k code).markChosen k .suspect
      else (s.takenBack k code).interruptVolume k) = t := ⟨_, rfl⟩
  have running : (t.lane k).verify.isSome = true := by
    have back : ((s.takenBack k code).lane k).verify = (s.lane k).verify := by rw [Part.takenBack, lane_setLane_same]
    rw [← left]
    split
    · rw [show ((s.takenBack k code).markChosen k .suspect).lane k = (s.takenBack k code).lane k from
        congrArg (fun l => l.get k) (markChosen_views _ k _).1, back, runs]
    · obtain ⟨v, r, same⟩ := interruptVolume_lane (s := s.takenBack k code) (k := k) (by rw [Part.takenBack, lane_setLane_same])
      rw [same, ← runs, ← back]
  rw [laneFault_eq other, left, enterFault_lane, withdraw_lane, lane_modLane_same]
  exact endJobs_last running

/-! ## A lane put in FAULT by a return (R97) -/

/-- NO CARTRIDGE to what is sent or to a SEEK (R97, R169). -/
theorem faultReturn_noCartridge {p : Part} {k : LaneId} {l : Lane} (busy : l.sent ≠ [] ∨ l.seeking = true) :
    (p.setLane k l.cleared).faultReturn k .noCartridge
      = ((((p.touch (.lane k)).setLane k (l.cleared.showing (some .noCartridge))).verifyChunkEnds k).unknownAt (bay k)).laneFault k
        .noCartridge := by
  have ordered : (!(l.cleared.showing (some .noCartridge)).sent.isEmpty || (l.cleared.showing (some .noCartridge)).seeking) = true := by
    rw [Bool.or_eq_true_iff, Bool.not_eq_true', List.isEmpty_eq_false_iff]
    exact busy
  unfold Part.faultReturn
  rw [show_fault]
  simp only [lane_setLane_same, if_pos ordered]

/-- A FAULT to an UNLOAD (R97). -/
theorem faultReturn_unload {p : Part} {k : LaneId} {l : Lane} {f : FormatterFault} (sent : l.sent = []) (idle : l.seeking = false)
    (out : l.outstanding ≠ none) : (p.setLane k l.cleared).faultReturn k f
      = (if f = .noCartridge
          then ((p.touch (.lane k)).setLane k { l.cleared.showing (some f) with outstanding := none }).unknownAt (bay k)
          else (p.touch (.lane k)).setLane k { l.cleared.showing (some f) with outstanding := none }).laneFault k f.code := by
  have free : (!(l.cleared.showing (some f)).sent.isEmpty || (l.cleared.showing (some f)).seeking) = false := by
    rw [show (l.cleared.showing (some f)).sent = [] from sent, show (l.cleared.showing (some f)).seeking = false from idle]
    rfl
  have unload : (l.cleared.showing (some f)).unloadOut = true := by
    obtain ⟨o, same⟩ := Option.ne_none_iff_exists'.mp out
    simp only [Lane.seeking, same] at idle
    have order : (l.cleared.showing (some f)).outstanding = some o := same
    simp only [Lane.unloadOut, order, Option.isNone_iff_eq_none]
    exact Option.isSome_eq_false_iff.mp idle |> Option.isNone_iff_eq_none.mp
  unfold Part.faultReturn
  rw [show_fault]
  simp only [lane_setLane_same, free, Bool.false_eq_true, if_false, unload, if_true, Part.endOrder, modLane_setLane]

/-- NO CARTRIDGE to a verify job's chunk changes the job alone (R169). -/
theorem verifyChunkEnds_setLane (p : Part) (k : LaneId) (l : Lane) :
    ∃ v, (p.setLane k l).verifyChunkEnds k = p.setLane k { l with verify := v } := by
  unfold Part.verifyChunkEnds
  split
  · split
    · rw [modVerify_setLane]
      exact ⟨_, rfl⟩
    · exact ⟨_, rfl⟩
  · exact ⟨_, rfl⟩

/-- NO CARTRIDGE to a verify job's chunk counts the chunk and its sequences (R169). -/
theorem verifyChunkEnds_reading {p : Part} {k : LaneId} {l : Lane} {j : VerifyJob} {a last n : Nat} (verify : l.verify = some j)
    (reading : j.phase = .reading) (seeking : l.seeking = true) (chunk : l.access.chunk = some (a, last))
    (count : last + 1 - j.expected - j.absent j.expected (last + 1) = n) :
    (p.setLane k l).verifyChunkEnds k = p.setLane k { l with verify := some (j.ranTo n (last + 1)) } := by
  have verifying : (p.setLane k l).verifying k = some j := by
    simp only [Part.verifying, lane_setLane_same, verify, reading, reduceCtorEq, if_false]
  simp only [Part.verifyChunkEnds, verifying, lane_setLane_same, if_pos (And.intro reading seeking), chunk, Option.map_some,
    Option.getD_some, modVerify_setLane, verify, j.ran_to count]

section ReturnFaults
variable {s : State} {t : Txn} {k : LaneId} {kind reason : Byte} (h : ShortReturn s t k kind reason)
include h

/-- A return that puts its lane in FAULT: the next state's lane and occupancies (R97, R107). -/
theorem short_lane_faults {y p : Part} {code : LaneCode} (effect : s.clientTransaction t = y.laneFault k code)
    (answered : s.Answered p t k) (still : y.still = p.still) (other : (y.lane k).state ≠ .fault) :
    ∃ u : State, exec (.returnWrite t) s = .next u ∧ u.pending = s.pending ∧ u.frame = s.frame
      ∧ (u.lane k).outside = ((y.laneFault k code).lane k).outside ∧ (∀ q, (u.loc q).occ = (y.loc q).occ)
      ∧ (y.lane k).FaultOf ((y.laneFault k code).lane k) code := by
  have faulted := laneFault_lane code other
  obtain ⟨u, moves, pending, frame, lanes, locs, -⟩ := short_settles h effect answered (by rw [laneFault_still, still])
  have spared := settle_shut s.toPart false faulted.toShut
  refine ⟨u, moves, pending, frame, by rw [lanes, spared.lane], fun q => ?_, faulted⟩
  rw [locs, spared.occ, (laneFault_works y k code).occ]

/-- NO CARTRIDGE to anything sent or outstanding (R97). -/
theorem short_noCartridge (fault : kind = 2) (named : reason = 2) (busy : (s.lane k).sent ≠ [] ∨ (s.lane k).outstanding ≠ none) :
    ∃ m : Lane, s.clientTransaction t = ((((s.okayed t).touch (.lane k)).setLane k m).unknownAt (bay k)).laneFault k .noCartridge
      ∧ m.state = (s.lane k).state ∧ m.lastFault = some .noCartridge := by
  obtain ⟨l, shows⟩ : ∃ l, (s.lane k).cleared.showing (some .noCartridge) = l := ⟨_, rfl⟩
  have effect := short_faults h .noCartridge fault named busy
  by_cases ordered : (s.lane k).sent ≠ [] ∨ (s.lane k).seeking = true
  · obtain ⟨v, ends⟩ := verifyChunkEnds_setLane ((s.okayed t).touch (.lane k)) k l
    refine ⟨{ l with verify := v }, ?_, by rw [← shows]; rfl, by rw [← shows]; rfl⟩
    rw [effect, faultReturn_noCartridge ordered, shows, ends]
  · obtain ⟨sent, idle⟩ := not_or.mp ordered
    refine ⟨{ l with outstanding := none }, ?_, by rw [← shows]; rfl, by rw [← shows]; rfl⟩
    have out : (s.lane k).outstanding ≠ none := busy.resolve_left sent
    rw [effect, faultReturn_unload (not_not.mp sent) (Bool.eq_false_iff.mpr idle) out, shows, if_pos rfl]
    rfl

/-- NO CARTRIDGE puts the lane in FAULT, the bay UNKNOWN and the jobs to an end (R97, R107). -/
theorem noCartridge_faults (fault : kind = 2) (named : reason = 2) (busy : (s.lane k).sent ≠ [] ∨ (s.lane k).outstanding ≠ none) :
    ∃ u : State, exec (.returnWrite t) s = .next u ∧ u.pending = s.pending ∧ u.frame = s.frame ∧ (u.lane k).state = .fault
      ∧ (u.lane k).code = .noCartridge ∧ (u.lane k).lastFault = some .noCartridge ∧ (u.lane k).restore = none
      ∧ (u.lane k).verify = none ∧ (u.loc (bay k)).occ = .unknown := by
  obtain ⟨m, effect, state, shown⟩ := short_noCartridge h fault named busy
  obtain ⟨y, emptied⟩ : ∃ y, (((s.okayed t).touch (.lane k)).setLane k m).unknownAt (bay k) = y := ⟨_, rfl⟩
  have here : y.lane k = m := by rw [← emptied]; exact lane_setLane_same _ k m
  have still : y.still = ((s.okayed t).touch (.lane k)).still := by rw [← emptied, unknownAt_still, setLane_still]
  have bare : (y.loc (bay k)).occ = .unknown := by rw [← emptied, Part.unknownAt, loc_setLoc_same]
  rw [emptied] at effect
  obtain ⟨u, moves, pending, frame, lane, occ, f⟩ := short_lane_faults h effect (.inr rfl) still (by rw [here, state]; exact h.working)
  have shut := f.toShut.of_outside lane
  refine ⟨u, moves, pending, frame, shut.state, ?_, ?_, shut.restore, shut.verify, (occ _).trans bare⟩
  · exact (congrArg Lane.code lane : _).trans f.code
  · exact (congrArg Lane.lastFault lane : _).trans (f.lastFault.trans (here ▸ shown))

/-- NO CARTRIDGE to a verify job's chunk counts the chunk and its sequences before the job ends (R97, R169). -/
theorem verifyChunk_noCartridge (fault : kind = 2) (named : reason = 2) (seeks : (s.lane k).seeks) {j : VerifyJob} {a last n : Nat}
    (verify : (s.lane k).verify = some j) (reading : j.phase = .reading) (chunk : (s.lane k).access.chunk = some (a, last))
    (count : last + 1 - j.expected - j.absent j.expected (last + 1) = n) :
    ∃ u : State, exec (.returnWrite t) s = .next u
      ∧ (u.lane k).lastVerify.map (fun y => (y.result, y.chunks, y.lost)) = some (.laneFault, j.chunks + 1, j.lost + n) := by
  have seeking := seeking_of seeks
  obtain ⟨o, out, -⟩ := seeks
  obtain ⟨l, shows⟩ : ∃ l, (s.lane k).cleared.showing (some .noCartridge) = l := ⟨_, rfl⟩
  obtain ⟨m, ran⟩ : ∃ m : Lane, { l with verify := some (j.ranTo n (last + 1)) } = m := ⟨_, rfl⟩
  obtain ⟨y, emptied⟩ : ∃ y, (((s.okayed t).touch (.lane k)).setLane k m).unknownAt (bay k) = y := ⟨_, rfl⟩
  have ends := verifyChunkEnds_reading (p := (s.okayed t).touch (.lane k)) (k := k) (l := l) (by rw [← shows]; exact verify) reading
    (by rw [← shows]; exact seeking) (by rw [← shows]; exact chunk) count
  have effect : s.clientTransaction t = y.laneFault k .noCartridge := by
    rw [short_faults h .noCartridge fault named (.inr (by rw [out]; nofun)), faultReturn_noCartridge (.inr seeking), shows, ends, ran, emptied]
  have here : y.lane k = m := by rw [← emptied]; exact lane_setLane_same _ k m
  have still : y.still = ((s.okayed t).touch (.lane k)).still := by rw [← emptied, unknownAt_still, setLane_still]
  have other : (y.lane k).state ≠ .fault := by
    rw [here, ← ran, ← shows]
    exact h.working
  obtain ⟨u, moves, -, -, lane, -, f⟩ := short_lane_faults h effect (.inr rfl) still other
  have figures : (u.lane k).verifyFigures = some (j.lost + n, j.chunks + 1, max j.expected (last + 1)) := by
    have same : (u.lane k).verifyFigures = ((y.laneFault k .noCartridge).lane k).verifyFigures := (congrArg Lane.verifyFigures lane :)
    rw [same, (laneFault_works y k .noCartridge).figures, here, ← ran]
    rfl
  have result : (u.lane k).lastVerify.map (·.result) = some .laneFault := by
    have same : (u.lane k).lastVerify = ((y.laneFault k .noCartridge).lane k).lastVerify := (congrArg Lane.lastVerify lane :)
    rw [same]
    exact laneFault_last other (by rw [here, ← ran]; rfl)
  have ended := lastVerify_of (f.toShut.of_outside lane).verify figures result
  refine ⟨u, moves, ?_⟩
  have shown := congrArg (Option.map fun y : JobResult × Nat × Nat × Nat => (y.1, y.2.2.1, y.2.1)) ended
  rwa [Option.map_map] at shown

/-- MEDIA, PROTECTED or END OF MEDIA to an UNLOAD puts the lane in FAULT with that code (R97). -/
theorem unload_faults (f : FormatterFault) (other : f ≠ .noCartridge) (fault : kind = 2) (named : reason = f.byte)
    (sent : (s.lane k).sent = []) (unload : ∃ o, (s.lane k).outstanding = some o ∧ o.seek = none) :
    ∃ u : State, exec (.returnWrite t) s = .next u ∧ u.pending = s.pending ∧ u.frame = s.frame ∧ (u.lane k).state = .fault
      ∧ (u.lane k).code = f.code := by
  obtain ⟨o, out, seek⟩ := unload
  have idle : (s.lane k).seeking = false := by simp only [Lane.seeking, out, seek]; rfl
  have busy : (s.lane k).outstanding ≠ none := by rw [out]; nofun
  obtain ⟨m, shows⟩ : ∃ m : Lane, { (s.lane k).cleared.showing (some f) with outstanding := none } = m := ⟨_, rfl⟩
  have effect : s.clientTransaction t = (((s.okayed t).touch (.lane k)).setLane k m).laneFault k f.code := by
    rw [short_faults h f fault named (.inr busy), faultReturn_unload sent idle busy, if_neg other, shows]
  have working : ((((s.okayed t).touch (.lane k)).setLane k m).lane k).state ≠ .fault := by
    rw [lane_setLane_same, ← shows]
    exact h.working
  obtain ⟨u, moves, pending, frame, lane, -, f⟩ := short_lane_faults h effect (.inr rfl) (setLane_still _ _ _) working
  exact ⟨u, moves, pending, frame, (congrArg Lane.state lane : _).trans f.state, (congrArg Lane.code lane : _).trans f.code⟩

end ReturnFaults

/-! ## The identity SEEK ends (R157, R165) -/

/-- `t` is `s` with lane `k`'s restore ended with `r`, no verify job on it, and the lane at rest (R165). -/
structure Part.RestoreEnded (s t : Part) (k : LaneId) (r : JobResult) : Prop where
  shown : (t.lane k).state = t.restState k
  restore : (t.lane k).restore = none
  verify : (t.lane k).verify = none
  loan : (t.lane k).access.loan = .none
  last : (t.lane k).lastRestore.map (·.result) = some r
  library : t.library = s.library

theorem restoreOver_lane {s : Part} {k : LaneId} {j : RestoreJob} (r : JobResult) (restore : (s.lane k).restore = some j)
    (runs : j.phase ≠ .waitingVerify) : (s.restoreOver k r).lane k = { s.lane k with
      restore := none, lastRestore := some { j with result := r }, unpack := Unpack.empty false, buffer := none
      access := Access.none } := by
  simp only [Part.restoreOver, restore, if_neg runs]
  have dropped : ∀ t : Part, (t.dropAccess k).lane k = { t.lane k with
      unpack := Unpack.empty false, buffer := none, access := Access.none } := fun t => by
    unfold Part.dropAccess Part.clearUnpack
    dsimp only
    split
    · rw [orphan_lane_other, lane_modLane_same, lane_modLane_same]
    · rw [lane_modLane_same, lane_modLane_same]
  refine (dropped _).trans ?_
  rw [lane_modLane_same]

/-- A restore that ends where no verify job is suspended leaves its lane at rest (R165). -/
theorem endRestore_ends {s : Part} {k : LaneId} {j : RestoreJob} (r : JobResult) (restore : (s.lane k).restore = some j)
    (runs : j.phase ≠ .waitingVerify) (verify : (s.lane k).verify = none) : s.RestoreEnded (s.endRestore k r) k r := by
  obtain ⟨a, dropped⟩ : ∃ a, ((s.withdraw k).dropPending k).endOrder k = a := ⟨_, rfl⟩
  have kept : (a.lane k).restore = some j ∧ (a.lane k).verify = none := by
    rw [← dropped, Part.endOrder, lane_modLane_same, Part.dropPending, lane_modLane_same, withdraw_lane]
    exact ⟨restore, verify⟩
  have same : a.library = s.library := by
    rw [← dropped]
    exact (withdraw_endsJobs s k).library
  obtain ⟨b, finished⟩ : ∃ b, a.restoreOver k r = b := ⟨_, rfl⟩
  have here := restoreOver_lane r kept.1 runs
  rw [finished] at here
  have library : b.library = s.library := by
    rw [← finished]
    exact (restoreOver_endsJobs a k r).1.library.trans same
  obtain ⟨lane, -, rested⟩ := rest_views b k
  have idle : ((b.rest k).lane k).verify = none := by rw [lane, here]; exact kept.2
  have ends : s.endRestore k r = b.rest k := by
    simp only [Part.endRestore, dropped, finished, Part.resumeVerify, idle]
  have shows : (b.rest k).restState k = b.restState k := by rw [Part.restState, Part.loc, rested]; rfl
  rw [ends]
  refine ⟨by rw [shows, lane], ?_, idle, ?_, ?_, rested.trans library⟩ <;> rw [lane, here] <;> rfl

theorem nameRestore_runs (s : Part) (k : LaneId) (r : RecResult) (rewrite : Bool) :
    ((s.nameRestore k r rewrite).lane k).restore.map (·.phase) = (s.lane k).restore.map (·.phase) := by
  have counted : ∀ (t : Part) n, ((t.modRestore k fun j => { j.count n r with openPrefix := none }).lane k).restore.map (·.phase)
      = (t.lane k).restore.map (·.phase) := fun t n => by
    rw [Part.modRestore, lane_modLane_same, Option.map_map]
    cases (t.lane k).restore with
    | none => rfl
    | some j =>
      have phase : (j.count n r).phase = j.phase := by
        unfold RestoreJob.count
        split <;> rfl
      exact congrArg some phase
  have reported : ∀ n m, ((s.reportOpen k n m r rewrite).lane k).restore.map (·.phase) = (s.lane k).restore.map (·.phase) := fun n m => by
    unfold Part.reportOpen
    split
    · dsimp only
      rw [counted]
      split
      · split <;> rfl
      · rfl
    · rfl
  unfold Part.nameRestore
  split
  · split
    · rw [Part.setSlot, lane_modLane_same]
      exact reported _ _
    · rfl
  · rfl

/-- A restore that ends early with no chunk outstanding leaves its lane at rest (R165). -/
theorem endEarly_ends {s : Part} {k : LaneId} {j : RestoreJob} (r : JobResult) (restore : (s.lane k).restore = some j)
    (runs : j.phase ≠ .waitingVerify) (verify : (s.lane k).verify = none) (idle : (s.lane k).seeking = false) :
    s.RestoreEnded (s.endEarly k r) k r := by
  obtain ⟨t, named⟩ : ∃ t, s.nameRestore k .incomplete (r != .memory) = t := ⟨_, rfl⟩
  have names : s.EndsJobs t k := named ▸ nameRestore_endsJobs s k _ _
  have phase : (t.lane k).restore.map (·.phase) = some j.phase := by rw [← named, nameRestore_runs, restore]; rfl
  obtain ⟨i, running, same⟩ := Option.map_eq_some_iff.mp phase
  have out : (t.lane k).seeking = false := by
    have order : (t.lane k).outstanding = (s.lane k).outstanding := (congrArg Lane.outstanding names.lane :)
    rw [Lane.seeking, order]
    exact idle
  have ends : s.endEarly k r = t.endRestore k r := by
    unfold Part.endEarly
    rw [named]
    exact if_neg (by rw [out]; nofun)
  have ended := endRestore_ends r running (by rw [same]; exact runs) (names.verify verify)
  rw [ends]
  exact { ended with library := ended.library.trans names.library }

/-- The identity SEEK's end is judged by the identity (R157). -/
theorem seekEnded_identity {p : Part} {k : LaneId} {l : Lane} {j : RestoreJob} (fault media : Bool) (restore : l.restore = some j)
    (identifies : j.phase = .identifying) :
    (p.setLane k l).seekEnded k fault media = if fault = false ∧ l.access.identity = some true
      then (p.setLane k l.sought).identityPassed k else (p.setLane k l.sought).identityFailed k := by
  have kept : l.sought.restore = some j := restore
  have restoring : (p.setLane k l.sought).restoring k = some j := by
    simp only [Part.restoring, lane_setLane_same, kept, identifies, reduceCtorEq, if_false]
  have same : l.sought.access.identity = l.access.identity := rfl
  unfold Part.seekEnded
  simp only [lane_setLane_same, endSeek_setLane, restoring, identifies, if_true, same, Bool.and_eq_true, Bool.not_eq_true', beq_iff_eq]

/-- Identity passed on a restore's first volume (R157). -/
theorem identityPassed_first {p : Part} {k : LaneId} {l : Lane} {j : RestoreJob} (restore : l.restore = some j)
    (identifies : j.phase = .identifying) (first : j.current = 0) :
    (p.setLane k l).identityPassed k = p.setLane k { l with state := .reading, restore := some { j with phase := .reading } } := by
  obtain ⟨m, enters⟩ : ∃ m : Lane, { l with state := .reading } = m := ⟨_, rfl⟩
  have running : m.restore = some j := by rw [← enters]; exact restore
  have restoring : (p.setLane k m).restoring k = some j := by
    simp only [Part.restoring, lane_setLane_same, running, identifies, reduceCtorEq, if_false]
  obtain ⟨n, reads⟩ : ∃ n : Lane, { m with restore := some { j with phase := .reading } } = n := ⟨_, rfl⟩
  have phase : (p.setLane k m).jobPhase k .reading .reading = p.setLane k n := by
    simp only [Part.jobPhase, restoring, modRestore_setLane, running, Option.map_some, reads]
  have kept : n.restore = some { j with phase := .reading } := reads ▸ rfl
  have isRestoring : ((p.setLane k n).restoring k).isSome = true := by
    simp only [Part.restoring, lane_setLane_same, kept, reduceCtorEq, if_false, Option.isSome_some]
  simp only [Part.identityPassed, modLane_setLane, enters, phase, isRestoring, if_true, Part.continuity, lane_setLane_same, kept]
  rw [if_pos first, ← reads, ← enters]

/-- Identity failed or undecided: the cartridge is SUSPECT and the restore over (R157). -/
theorem identityFailed_ends {p : Part} {k : LaneId} {j : RestoreJob} (restore : (p.lane k).restore = some j)
    (identifies : j.phase = .identifying) (verify : (p.lane k).verify = none) (idle : (p.lane k).seeking = false) :
    ∃ x : Part, ((p.loc (bay k)).occ ≠ .empty → (x.loc (bay k)).state = some .suspect)
      ∧ x.RestoreEnded (p.identityFailed k) k .wrongVolume
      ∧ ((p.lane k.other).calm = true → ((p.identityFailed k).lane k.other).calm = true) := by
  obtain ⟨x, marked⟩ : ∃ x : Part, (if (p.loc (bay k)).occ = .empty then p
    else p.setLoc (bay k) { p.loc (bay k) with state := some .suspect }) = x := ⟨_, rfl⟩
  have same : ∀ i, x.lane i = p.lane i := fun i => by
    rw [← marked]
    split <;> rfl
  have running : (x.lane k).restore = some j := by rw [same]; exact restore
  have restoring : (x.restoring k).isSome = true := by
    simp only [Part.restoring, running, identifies, reduceCtorEq, if_false, Option.isSome_some]
  have fails : p.identityFailed k = x.endEarly k .wrongVolume := by
    unfold Part.identityFailed
    dsimp only
    rw [marked, Part.endJob, if_pos restoring]
  rw [fails, ← same]
  exact ⟨x, fun occupied => by rw [← marked, if_neg occupied, loc_setLoc_same],
    endEarly_ends .wrongVolume running (by rw [identifies]; nofun) (by rw [same]; exact verify) (by rw [same]; exact idle),
    (endEarly_works x k _).calm⟩

section Identity
variable {s : State} {t : Txn} {k : LaneId} {kind reason : Byte} (h : ShortReturn s t k kind reason)
  (sent : (s.lane k).sent = []) (seeks : (s.lane k).seeks) {j : RestoreJob} (restore : (s.lane k).restore = some j)
  (identifies : j.phase = .identifying) (verify : (s.lane k).verify = none) (calm : (s.lane k.other).calm = true)
include h sent seeks restore identifies verify calm

/-- END to the identity SEEK of a job whose identity passed: READING, with the first chunk's SEEK pending (R157). -/
theorem identity_reads {v : VolRecord} (ended : kind = 1) (passed : (s.lane k).access.identity = some true)
    (buffer : (s.lane k).buffer = none) (walk : (s.lane k).access.walk = none) (loan : (s.lane k).access.loan = .none)
    (volume : j.volumes[j.current]? = some v) (first : j.current = 0) (left : j.expected ≤ v.lastBlock) (wants : j.cursor ≤ j.effLast) :
    ∃ u : State, exec (.returnWrite t) s = .next u ∧ u.pending = s.pending ∧ u.frame = s.frame ∧ (u.lane k).state = .reading
      ∧ (u.lane k).restore = some { j with phase := .reading }
      ∧ (u.lane k).pending = some (.seek j.expected (min (j.expected + 63) v.lastBlock)) := by
  obtain ⟨m, reads⟩ : ∃ m : Lane, { (s.lane k).chunkOver kind reason with
    state := .reading, restore := some { j with phase := .reading } } = m := ⟨_, rfl⟩
  have effect : s.clientTransaction t = (s.okayed t).setLane k m := by
    have judged := seekEnded_identity (p := s.okayed t) (k := k) (l := (s.lane k).cleared.showing ((s.lane k).shows kind reason)) false
      false restore identifies
    have passes := identityPassed_first (p := s.okayed t) (k := k) (l := (s.lane k).chunkOver kind reason) restore identifies first
    rw [((short_ends h sent seeks).1 ended), judged, ← reads]
    exact (if_pos ⟨rfl, passed⟩).trans passes
  have quiet : m.quiet = true := by rw [← reads]; exact chunkOver_quiet kind reason buffer walk
  have running : m.restore = some { j with phase := .reading } := reads ▸ rfl
  obtain ⟨n, chunked⟩ : ∃ n, m.seeksFrom j.expected (min (j.expected + 63) v.lastBlock) = n := ⟨_, rfl⟩
  have next := restoreStep_reading (p := s.okayed t) (k := k) running rfl wants quiet volume
  have away : ¬ (((s.okayed t).setLane k m).lane k).judged := by
    rw [lane_setLane_same, ← reads]
    exact reading_away rfl
  have answered : s.Answered (s.okayed t) t k := .inl rfl
  have settled := settle_beside s.toPart false away (answered.calm m calm)
  have stays : ((s.okayed t).setLane k n).loanStep k = (s.okayed t).setLane k n := by
    refine if_neg fun lent => ?_
    have none : n.access.loan = .none := by rw [← chunked, ← reads]; exact loan
    rw [lane_setLane_same, none] at lent
    cases lent.1
  have working : (((s.okayed t).setLane k n).lane k).resting = false := by
    rw [lane_setLane_same, ← chunked, ← reads]
    rfl
  have here : (settle s.toPart ((s.okayed t).setLane k m) false).lane k = n := by
    rw [settled, verifyStep_of_none (by rw [lane_setLane_same, ← reads]; exact verify), next.trans (if_pos left), chunked, stays,
      follow_both_working working, lane_setLane_same]
  obtain ⟨u, moves, pending, frame, lanes, -, -⟩ := short_settles h effect answered rfl
  have lane : u.lane k = n := (lanes k).trans here
  exact ⟨u, moves, pending, frame, by rw [lane, ← chunked, ← reads]; rfl, by rw [lane, ← chunked]; exact running,
    by rw [lane, ← chunked]; rfl⟩

/-- The identity SEEK's end where identity has not passed: WRONG VOLUME, the cartridge SUSPECT (R157). -/
theorem identity_fails (ends : kind = 1 ∧ (s.lane k).access.identity ≠ some true ∨ worn kind reason ∨ full kind reason) :
    ∃ u : State, exec (.returnWrite t) s = .next u ∧ u.pending = s.pending ∧ u.frame = s.frame ∧ (u.lane k).restore = none
      ∧ (u.lane k).lastRestore.map (·.result) = some .wrongVolume
      ∧ ((s.loc (bay k)).occ ≠ .empty → (u.loc (bay k)).state = some .suspect) := by
  obtain ⟨l, ran⟩ : ∃ l, (s.lane k).chunkOver kind reason = l := ⟨_, rfl⟩
  obtain ⟨p, answered, effect⟩ : ∃ p, s.Answered p t k ∧ s.clientTransaction t = (p.setLane k l).identityFailed k := by
    have judged := fun (p : Part) fault media => seekEnded_identity (p := p) (k := k)
      (l := (s.lane k).cleared.showing ((s.lane k).shows kind reason)) fault media restore identifies
    obtain ⟨ended, faulted⟩ := short_ends h sent seeks
    rw [← ran]
    rcases ends with ⟨one, other⟩ | fault
    · refine ⟨_, .inl rfl, ((ended one).trans (judged _ false false)).trans (if_neg fun both => other both.2)⟩
    · refine ⟨_, .inr rfl, ((faulted fault).trans (judged _ true _)).trans (if_neg fun both => by cases both.1)⟩
  obtain ⟨x, suspect, ended, stays⟩ := identityFailed_ends (p := p.setLane k l) (k := k)
    (by rw [lane_setLane_same, ← ran]; exact restore) identifies (by rw [lane_setLane_same, ← ran]; exact verify)
    (by rw [lane_setLane_same, ← ran]; rfl)
  obtain ⟨lane, library⟩ := settle_rested s.toPart false ended.shown ended.restore ended.verify ended.loan
    (stays (answered.calm l calm))
  obtain ⟨u, moves, pending, frame, lanes, locs, -⟩ := short_settles h effect answered
    ((identityFailed_still _ k).trans (setLane_still p k l))
  have place : u.loc (bay k) = x.loc (bay k) := by
    rw [locs, Part.loc, library, ended.library]
    rfl
  have before : (p.setLane k l).loc (bay k) = s.loc (bay k) := congrArg (fun l : Library => l.records[bay k]) answered.views.2.2.1
  rw [before, ← place] at suspect
  exact ⟨u, moves, pending, frame, by rw [lanes, lane, ended.restore], by rw [lanes, lane, ended.last], suspect⟩

end Identity

/-! ## A volume abandoned by its return (R97, R121) -/

theorem findSpan_modSpan (s : Part) (l : Label) {f : SpanEntry → SpanEntry} (label : ∀ e, (f e).label = e.label) :
    (s.modSpan l f).findSpan l = (s.findSpan l).map f := by
  have same : ((fun e : SpanEntry => e.label == l) ∘ fun e => if e.label = l then f e else e) = fun e => e.label == l := by
    funext e
    simp only [Function.comp]
    split
    · rw [label]
    · rfl
  rw [Part.findSpan, Part.modSpan, List.find?_map, same, Part.findSpan]
  cases found : s.span.find? (fun e => e.label == l) with
  | none => rfl
  | some e =>
    have here : e.label = l := by simpa using List.find?_some found
    rw [Option.map_some, Option.map_some, if_pos here]

theorem requeued_span (s : Part) (k : LaneId) (sent : List SentEntry) : (s.requeued k sent).span = s.span := by
  refine foldl_view (·.span) (fun s y => match y.kind with
    | .data b => s.setCopy k b .queued
    | _ => s) (fun s y => ?_) sent s
  split <;> rfl

theorem markChosen_span (s : Part) (k : LaneId) (c : CartState) : (s.markChosen k c).span = s.span := by
  unfold Part.markChosen Part.setCartridge
  split
  · split <;> rfl
  · rfl

theorem setLimits_span (s : Part) (g : Nat → Nat → Nat) : (s.setLimits g).span = s.span := by
  unfold Part.setLimits
  dsimp only
  split <;> split <;> rfl

theorem follow_span (s : Part) (j : LaneId) : (s.follow j).span = s.span := by
  unfold Part.follow
  dsimp only
  split <;> rfl

/-- The lane of an open volume that is abandoned (R121). -/
theorem abandon_lane {s : Part} {k : LaneId} (cause : Option SuspectCause) :
    ∃ v stale q r, (s.abandon k cause).lane k = { s.lane k with
      serving := v, owedEov := none, volume := none, stale := stale, sent := [], queue := q, run := r
      state := .unloading, pending := some .unload } := by
  obtain ⟨v, t, forsaken, same⟩ := abandon_steps s k cause
  have marked : ∀ c, (t.markChosen k c).lane k = t.lane k := fun c => congrArg (fun l => l.get k) (markChosen_views t k c).1
  obtain ⟨x, left⟩ : ∃ x : Part, (if (s.lane k).volumeOpen then
      (t.markChosen k (if cause.isSome then .suspect else .full)).mirror k fun e => { e with
        mirror := if cause.isSome then .suspect else .full, cause := cause.getD .none }
      else t.markChosen k .suspect) = x := ⟨_, rfl⟩
  have here : x.lane k = t.lane k := by
    rw [← left]
    split
    · exact (congrArg (fun l => l.get k) (mirror_views _ k _).1).trans (marked _)
    · exact marked _
  obtain ⟨r, emptied⟩ := leaveVolume_lane x k
  rw [same, left, Part.startUnload, lane_modLane_same, Part.carry, lane_modLane_same, emptied, here, ← forsaken, lane_setLane_same]
  exact ⟨_, _, _, _, rfl⟩

/-- The span entry of an open volume that is abandoned (R121). -/
theorem abandon_span {s : Part} {k : LaneId} {v : Volume} {e : SpanEntry} (cause : Option SuspectCause)
    (opened : (s.lane k).volumeOpen = true) (volume : (s.lane k).volume = some v) (found : s.findSpan v.label = some e) :
    ((s.abandon k cause).findSpan v.label).map (fun y => (y.mirror, y.cause))
      = some (if cause.isSome then .suspect else .full, cause.getD .none) := by
  obtain ⟨w, t, forsaken, same⟩ := abandon_steps s k cause
  obtain ⟨c, mark⟩ : ∃ c : CartState, (if cause.isSome then .suspect else .full) = c := ⟨_, rfl⟩
  have holds : ((t.markChosen k c).lane k).volume = some v := by
    rw [show (t.markChosen k c).lane k = t.lane k from congrArg (fun l => l.get k) (markChosen_views t k c).1, ← forsaken,
      lane_setLane_same]
    exact volume
  have before : (t.markChosen k c).findSpan v.label = some e := by
    rw [Part.findSpan, markChosen_span, ← forsaken, setLane_span, requeued_span]
    exact found
  have spans : ∀ x : Part, (((x.leaveVolume k).carry k).startUnload k).findSpan v.label = x.findSpan v.label := fun x =>
    congrArg (List.find? fun e : SpanEntry => e.label == v.label) (setLimits_span (x.modLane k _) max)
  rw [same, if_pos opened, spans, mark, Part.mirror, holds]
  refine (congrArg (Option.map _) ((findSpan_modSpan _ _ ?_).trans (congrArg (Option.map _) before))).trans ?_
  · exact fun _ => rfl
  · rfl

/-- The suspect cause that a FAULT gives an abandoned volume, none at END OF MEDIA (R97). -/
def FormatterFault.suspects : FormatterFault → Option SuspectCause
  | .media => some .media
  | .isProtected => some .isProtected
  | _ => none

/-- A FAULT to blocks sent abandons the volume (R97, R121). -/
theorem faultReturn_abandons {p : Part} {k : LaneId} {l : Lane} (sent : l.sent ≠ []) (f : FormatterFault) (other : f ≠ .noCartridge) :
    (p.setLane k l.cleared).faultReturn k f = ((p.touch (.lane k)).setLane k (l.cleared.showing (some f))).abandon k
      f.suspects := by
  have busy : (l.cleared.showing (some f)).sent.isEmpty = false := List.isEmpty_eq_false_iff.mpr sent
  unfold Part.faultReturn
  rw [show_fault]
  simp only [lane_setLane_same, busy, Bool.not_false, Bool.true_or, if_true, Bool.false_eq_true, if_false]
  cases f
  · rfl
  · exact absurd rfl other
  · rfl
  · rfl

/-- A lane in UNLOADING without read jobs has nothing to settle. -/
theorem calm_unloading {l : Lane} (state : l.state = .unloading) (restore : l.restore = none) (verify : l.verify = none)
    (loan : l.access.loan = .none) : l.calm = true := by
  simp [Lane.calm, Lane.jobsCalm, state, restore, verify, loan]

/-- A FAULT to blocks sent on an open volume, as an event (R97, R121). -/
theorem sent_abandoned {s : State} {t : Txn} {k : LaneId} {kind reason : Byte} (h : ShortReturn s t k kind reason) (f : FormatterFault)
    (other : f ≠ .noCartridge) (fault : kind = 2) (named : reason = f.byte) (sent : (s.lane k).sent ≠ []) {v : Volume} {e : SpanEntry}
    (opened : (s.lane k).state = .append ∨ (s.lane k).state = .closing) (volume : (s.lane k).volume = some v)
    (found : s.findSpan v.label = some e) (restore : (s.lane k).restore = none) (verify : (s.lane k).verify = none)
    (loan : (s.lane k).access.loan = .none) (calm : (s.lane k.other).calm = true) :
    ∃ u : State, exec (.returnWrite t) s = .next u ∧ u.pending = s.pending ∧ u.frame = s.frame ∧ (u.lane k).state = .unloading
      ∧ (u.lane k).pending = some .unload ∧ (u.lane k).sent = [] ∧ (u.lane k).volume = none
      ∧ (u.findSpan v.label).map (fun y => (y.mirror, y.cause))
        = some (if f.suspects.isSome then .suspect else .full, f.suspects.getD .none) := by
  obtain ⟨l, shows⟩ : ∃ l, (s.lane k).cleared.showing (some f) = l := ⟨_, rfl⟩
  obtain ⟨x, faulted⟩ : ∃ x, ((s.okayed t).touch (.lane k)).setLane k l = x := ⟨_, rfl⟩
  have here : x.lane k = l := by rw [← faulted, lane_setLane_same]
  have effect : s.clientTransaction t = x.abandon k f.suspects := by
    rw [short_faults h f fault named (.inl sent), faultReturn_abandons sent f other, shows, faulted]
  have isOpen : (x.lane k).volumeOpen = true := by
    rw [here, ← shows]
    rcases opened with state | state <;> simp [Lane.volumeOpen, Lane.showing, Lane.cleared, state]
  have entry := abandon_span (s := x) (k := k) (v := v) (e := e) f.suspects isOpen (by rw [here, ← shows]; exact volume)
    (by rw [← faulted]; exact found)
  obtain ⟨w, stale, q, r, lane⟩ := abandon_lane (s := x) (k := k) f.suspects
  obtain ⟨m, gone⟩ : ∃ m, (x.abandon k f.suspects).lane k = m := ⟨_, rfl⟩
  have left : m.state = .unloading ∧ m.pending = some .unload ∧ m.sent = [] ∧ m.volume = none := by
    rw [← gone, lane]
    exact ⟨rfl, rfl, rfl, rfl⟩
  obtain ⟨state, pending', empty, bare⟩ := left
  have still : (x.abandon k f.suspects).still = ((s.okayed t).touch (.lane k)).still := by
    rw [abandon_still, ← faulted, setLane_still]
  have idle : ((x.abandon k f.suspects).lane k).calm = true := by
    refine calm_unloading (by rw [gone, state]) ?_ ?_ ?_ <;> rw [lane, here, ← shows]
    · exact restore
    · exact verify
    · exact loan
  have beside : (x.lane k.other).calm = true := by
    rw [← faulted]
    exact Part.Answered.calm (.inr rfl) l calm
  have settled := settle_calm s.toPart false (both_lanes idle ((abandon_works x k f.suspects).calm beside))
  have working : ((x.abandon k f.suspects).lane k).resting = false := by rw [Lane.resting, gone, state]; rfl
  obtain ⟨u, moves, pending, frame, lanes, -, span⟩ := short_settles h effect (.inr rfl) still
  have ends : u.lane k = m := by
    rw [lanes, settled, follow_both_working working, gone]
  have entries : u.findSpan v.label = (x.abandon k f.suspects).findSpan v.label := by
    rw [Part.findSpan, span, settled, follow_span, follow_span, Part.findSpan]
  exact ⟨u, moves, pending, frame, by rw [ends, state], by rw [ends, pending'], by rw [ends, empty], by rw [ends, bare],
    by rw [entries, entry]⟩

/-! ## UNLOADED (R98, R156) -/

/-- A move joins the changer queue (R146). -/
def Part.asking (s : Part) (j : Job) : Part :=
  { s with changer := { s.changer with
      queue := s.changer.queue ++ [⟨s.changer.nextEntry, j, false, false⟩], nextEntry := s.changer.nextEntry + 1 } }

theorem request_asks {s : Part} {k : LaneId} {j : Job} (works : s.changer.state ≠ .faulted) :
    s.request k j = (s.asking j).touch .changer := by
  rw [Part.request, if_neg works]
  rfl

/-- UNLOADED of a lane that lends its cartridge to no other asks for the home move (R98). -/
theorem unloadedReturn_home {p : Part} {k : LaneId} {l : Lane} (works : p.changer.state ≠ .faulted) (lending : l.lending = none) :
    (p.setLane k l).unloadedReturn k = ((p.asking (.home k)).setLane k { l with outstanding := none }).touch .changer := by
  simp only [Part.unloadedReturn, Part.endOrder, modLane_setLane, lane_setLane_same, lending]
  exact request_asks works

theorem jobLabel_other (p : Part) (k : LaneId) (l : Lane) : (p.setLane k l).jobLabel k.other = p.jobLabel k.other := by
  simp only [Part.jobLabel, Part.restoring, Part.verifying, lane_setLane_other]

/-- UNLOADED of a lane that lends its cartridge asks for the borrower's load (R98, R156). -/
theorem unloadedReturn_lends {p : Part} {k : LaneId} {l : Lane} {d : Lending} {b : Label} (works : p.changer.state ≠ .faulted)
    (lending : l.lending = some d) (kept : d.orphan = false) (label : p.jobLabel k.other = some b) :
    (p.setLane k l).unloadedReturn k = (((p.asking (.load k.other (bay k) b)).setLane k { l with
      outstanding := none, lending := some { d with unloaded := true, load := some p.changer.nextEntry } }).setLane k.other
      { p.lane k.other with
        state := .loading, access := { (p.lane k.other).access with loan := .loading } }).touch .changer := by
  simp only [Part.unloadedReturn, Part.endOrder, modLane_setLane, lane_setLane_same, lending, kept, Bool.false_eq_true, if_false,
    jobLabel_other, label, Part.loadFrom, Part.modAccess]
  refine Eq.trans (request_asks ?_) ?_
  · exact works
  · cases k <;> rfl

section Unloaded
variable {s : State} {t : Txn} {k : LaneId} {kind reason : Byte} (h : ShortReturn s t k kind reason) (unloaded : kind = 3)
  (unload : ∃ o, (s.lane k).outstanding = some o ∧ o.seek = none)
include h unloaded unload

/-- An UNLOADED return is taken (R95, R98). -/
theorem short_unloaded {x : Part} (effect : ((s.okayed t).setLane k (s.lane k).cleared).unloadedReturn k = (x.okayed t).touch .changer) :
    Leaves (.returnWrite t) s x := by
  obtain ⟨o, out, seek⟩ := unload
  have expects : (s.lane k).unloadOut = true := by simp only [Lane.unloadOut, out, seek]; rfl
  obtain ⟨r, taken⟩ := short_taken h ((short_kind h).2.2 unloaded) rfl expects
  have event := returnWrite_leaves h.high h.window
  rw [taken.trans effect] at event
  exact leaves_of_accepted (leaves_of_touched _ event)

variable (works : s.changer.state ≠ .faulted)
include works

/-- UNLOADED of a lane that lends nothing (R98). -/
theorem unloaded_home (lending : (s.lane k).lending = none) :
    Leaves (.returnWrite t) s ((s.asking (.home k)).setLane k { (s.lane k).cleared with outstanding := none }) :=
  short_unloaded h unloaded unload (unloadedReturn_home (p := s.okayed t) works lending)

/-- UNLOADED of a lender (R98, R156). -/
theorem unloaded_lends {d : Lending} {b : Label} (lending : (s.lane k).lending = some d) (kept : d.orphan = false)
    (label : s.jobLabel k.other = some b) :
    Leaves (.returnWrite t) s (((s.asking (.load k.other (bay k) b)).setLane k { (s.lane k).cleared with
      outstanding := none, lending := some { d with unloaded := true, load := some s.changer.nextEntry } }).setLane k.other
      { s.lane k.other with state := .loading, access := { (s.lane k.other).access with loan := .loading } }) :=
  short_unloaded h unloaded unload (unloadedReturn_lends (p := s.okayed t) works lending kept label)

end Unloaded

/-! ## The statement -/

theorem leaves_lane {c : Instr} {s : State} {k : LaneId} {l m : Lane} (h : Leaves c s (s.setLane k l)) (is : l = m) :
    Leaves c s (s.setLane k m) := is ▸ h

/-- The formatter faults that are not NO CARTRIDGE, with the code and the span entry's state that they give (R97). -/
theorem fault_named {kind reason : Byte} (ends : worn kind reason ∨ full kind reason) :
    ∃ f : FormatterFault, f ≠ .noCartridge ∧ kind = 2 ∧ reason = f.byte
      ∧ f.code = (if reason = 1 then .media else if reason = 3 then .isProtected else .endOfMedia)
      ∧ ((if f.suspects.isSome then .suspect else .full, f.suspects.getD .none) : CartState × SuspectCause)
        = if reason = 4 then (.full, .none) else (.suspect, if reason = 1 then .media else .isProtected) := by
  rcases ends with ⟨two, rfl | rfl⟩ | ⟨two, rfl⟩
  · exact ⟨.media, nofun, two, rfl, rfl, rfl⟩
  · exact ⟨.isProtected, nofun, two, rfl, rfl, rfl⟩
  · exact ⟨.endOfMedia, nofun, two, rfl, rfl, rfl⟩

/-- Settles O18: `order_delivered`; `restoreChunk_leaves`, `restoreChunk_seeks` and `restoreChunk_past`; `verifyChunk_leaves`,
`verifyChunk_seeks`, `verifyChunk_goesOn` and `verifyChunk_noCartridge`; `noCartridge_faults`; `identity_reads` and `identity_fails`;
`sent_abandoned`; `unload_faults`; `unloaded_home` and `unloaded_lends`. -/
theorem orderDelivered : Obligations.OrderDelivered := by
  refine ⟨fun s t k o high kind beats alone held working free pending order quiet => ?_,
    fun s t k kind reason high window alone length head working => ?_⟩
  · obtain ⟨u, v, moves, same, blocks, next, released, latched, answered⟩ :=
      order_delivered high kind beats alone held working free pending order quiet
    refine ⟨u, v, moves, same, ?_, next, released, latched, ?_⟩
    · rw [blocks]
      rcases order with rfl | ⟨a, b, rfl⟩ <;> rfl
    · rw [answered]
      rcases order with rfl | ⟨a, b, rfl⟩ <;> rfl
  · have h : ShortReturn s t k kind reason := ⟨high, window, alone, length, head, working⟩
    intro c l fault worn full shown seeking
    refine ⟨?_, ?_, ?_, ?_, ?_, ?_, ?_⟩
    · intro j v a last seeks sent restore reads wants chunk volume
      have leaves := fun stop stops => restoreChunk_leaves (stop := stop) h sent seeks restore reads wants chunk volume stops
      refine ⟨fun short => leaves_lane (leaves (last + 1) (.inl ⟨short, rfl⟩)) rfl,
        fun media => leaves_lane (leaves (v.lastBlock + 1) (.inr ⟨media, rfl⟩)) rfl,
        fun reading state buffer walk unverified calm => ?_⟩
      have chunks := fun stop stops => restoreChunk_seeks (stop := stop) h sent seeks restore reads wants chunk volume stops reading
        buffer walk unverified calm
      have past := fun stop stops => restoreChunk_past (stop := stop) h sent seeks restore reads wants chunk volume stops reading
        buffer walk unverified calm state
      exact ⟨fun short => ⟨fun left => leaves_lane (chunks (last + 1) (.inl ⟨short, rfl⟩) left) (seeksFrom_restore _ _ _ _ _ _),
          fun none => past (last + 1) (.inl ⟨short, rfl⟩) none⟩,
        fun media => ⟨fun left => leaves_lane (chunks (v.lastBlock + 1) (.inr ⟨media, rfl⟩) left) (seeksFrom_restore _ _ _ _ _ _),
          fun none => past (v.lastBlock + 1) (.inr ⟨media, rfl⟩) none⟩⟩
    · intro j a last seeks sent waits verify reading chunk
      have count := fun stop => (VerifyJob.lost_count j j.expected stop).symm
      have leaves := fun stop stops => verifyChunk_leaves (stop := stop) h sent seeks waits verify reading chunk stops (count stop)
      refine ⟨fun short => leaves_lane (leaves (last + 1) (.inl ⟨short, rfl⟩)) rfl,
        fun media => leaves_lane (leaves (j.verified + 1) (.inr ⟨media, rfl⟩)) rfl, fun state buffer walk calm => ?_,
        fun two reason' => verifyChunk_noCartridge h two reason' seeks verify reading chunk (count (last + 1))⟩
      have chunks := fun stop stops => verifyChunk_seeks (stop := stop) h sent seeks waits verify reading chunk stops (count stop)
        buffer walk calm
      have goesOn := fun stop stops => verifyChunk_goesOn (stop := stop) h sent seeks waits verify reading chunk stops (count stop)
        buffer walk calm state
      refine ⟨fun short => ?_, fun media => ?_⟩
      · obtain ⟨figures, ends⟩ := goesOn (last + 1) (.inl ⟨short, rfl⟩)
        exact ⟨fun left none => leaves_lane (chunks (last + 1) (.inl ⟨short, rfl⟩) left none) (seeksFrom_verify _ _ _ _ _ _), fun _ _ => figures, ends⟩
      · obtain ⟨figures, ends⟩ := goesOn (j.verified + 1) (.inr ⟨media, rfl⟩)
        exact ⟨fun left none => leaves_lane (chunks (j.verified + 1) (.inr ⟨media, rfl⟩) left none) (seeksFrom_verify _ _ _ _ _ _), fun _ _ => figures, ends⟩
    · exact fun two reason' busy => noCartridge_faults h two reason' busy
    · intro j v seeks sent restore identifies verify buffer walk loan volume first left wants calm
      exact ⟨fun ended passed => identity_reads h sent seeks restore identifies verify calm ended passed buffer walk loan volume first
        left wants, fun ends => identity_fails h sent seeks restore identifies verify calm ends⟩
    · intro v e ends sent opened volume found restore verify loan calm _
      obtain ⟨f, other, two, named, -, entry⟩ := fault_named ends
      rw [← entry]
      exact sent_abandoned h f other two named sent opened volume found restore verify loan calm
    · intro ends sent unload
      obtain ⟨f, other, two, named, code, -⟩ := fault_named ends
      rw [← code]
      exact unload_faults h f other two named sent unload
    · intro unloaded unload works
      exact ⟨fun lending => unloaded_home h unloaded unload works lending,
        fun d b lending kept label => unloaded_lends h unloaded unload works lending kept label⟩

end Sys2Proof.Machine
end

section
/-! SUPPORT. The labels of the Magazine Map and of the Span Table: what every command leaves of them (R112, R131, R132). Settles
O58. -/

namespace Sys2Proof.Machine

/-! ## The labels that the still part shows -/

/-- The labels of the location records and those of the Span Table. -/
structure Tags where
  map : Vector (Option Label) 27
  table : List Label

/-- The labels, which are all of the still part. -/
def Still.tags (t : Still) : Tags := ⟨t.labels, t.spanLabels⟩

/-- No label in two records, and at most 32 labels in the table, all different (R112, R131). -/
structure Tags.Apart (t : Tags) : Prop where
  map : ∀ p q : Loc, ∀ l, t.map[p] = some l → t.map[q] = some l → p = q
  table : t.table.length ≤ 32 ∧ t.table.Nodup

theorem tags_map (s : Part) (p : Loc) : s.still.tags.map[p] = (s.loc p).label := by
  simp [Still.tags, Part.still, Part.loc]

/-- The invariant speaks of the labels alone. -/
theorem labels_iff (s : Part) : s.Labels ↔ s.still.tags.Apart := by
  refine ⟨fun h => ⟨fun p q l hp hq => ?_, ?_⟩, fun h => ⟨fun p q l hp hq => ?_, ?_⟩⟩
  · rw [tags_map] at hp hq
    exact h.map p q l hp hq
  · exact ⟨(List.length_map _).trans_le h.span.1, h.span.2⟩
  · rw [← tags_map] at hp hq
    exact h.map p q l hp hq
  · exact ⟨(List.length_map _).symm.trans_le h.table.1, h.table.2⟩

/-- A step from `s` to `t` keeps each label in one record and in one entry of the table. -/
def Part.KeepsLabels (s t : Part) : Prop := s.Labels → t.Labels

theorem keepsLabels_refl (s : Part) : s.KeepsLabels s := id

theorem Part.KeepsLabels.trans {s t u : Part} (h : s.KeepsLabels t) (g : t.KeepsLabels u) : s.KeepsLabels u := g ∘ h

theorem keepsLabels_of_tags {s t : Part} (h : t.still.tags = s.still.tags) : s.KeepsLabels t := by
  intro hs
  rw [labels_iff, h, ← labels_iff]
  exact hs

/-- A step that leaves the labels of what another step keeps. -/
theorem Part.KeepsLabels.of_tags {s t u : Part} (h : s.KeepsLabels t) (g : u.still.tags = t.still.tags) : s.KeepsLabels u :=
  h.trans (keepsLabels_of_tags g)

theorem foldl_keepsLabels {α : Type} {f : Part → α → Part} (h : ∀ (s : Part) x, s.KeepsLabels (f s x)) (xs : List α) (s : Part) :
    s.KeepsLabels (xs.foldl f s) := by
  induction xs generalizing s with
  | nil => exact keepsLabels_refl s
  | cons x xs ih => exact (h s x).trans (ih _)

/-! ## Location records written (R131, R132, R144) -/

/-- A record written with a label that no other record holds. -/
theorem setLoc_keepsLabels {s : Part} {p : Loc} {r : LocRecord}
    (alone : ∀ l, r.label = some l → ∀ q, q ≠ p → (s.loc q).label ≠ some l) : s.KeepsLabels (s.setLoc p r) := by
  refine fun hs => ⟨fun a b l ha hb => ?_, hs.span⟩
  by_cases hap : a = p <;> by_cases hbp : b = p
  · exact hap.trans hbp.symm
  · subst hap
    rw [loc_setLoc_same] at ha
    rw [loc_setLoc_ne _ _ _ _ (Ne.symm hbp)] at hb
    exact absurd hb (alone l ha b hbp)
  · subst hbp
    rw [loc_setLoc_same] at hb
    rw [loc_setLoc_ne _ _ _ _ (Ne.symm hap)] at ha
    exact absurd ha (alone l hb a hap)
  · rw [loc_setLoc_ne _ _ _ _ (Ne.symm hap)] at ha
    rw [loc_setLoc_ne _ _ _ _ (Ne.symm hbp)] at hb
    exact hs.map a b l ha hb

theorem setLoc_unlabelled_keepsLabels {s : Part} {p : Loc} {r : LocRecord} (none : r.label = none) :
    s.KeepsLabels (s.setLoc p r) := setLoc_keepsLabels fun l named => by rw [none] at named; cases named

theorem emptyAt_keepsLabels (s : Part) (p : Loc) : s.KeepsLabels (s.emptyAt p) := setLoc_unlabelled_keepsLabels rfl
theorem forgetAt_keepsLabels (s : Part) (p : Loc) : s.KeepsLabels (s.forgetAt p) := setLoc_unlabelled_keepsLabels rfl
theorem unlabelledAt_keepsLabels (s : Part) (p : Loc) : s.KeepsLabels (s.unlabelledAt p) := setLoc_unlabelled_keepsLabels rfl

/-- A MOVE that ends OK takes the label with the cartridge: the record it leaves is EMPTY before the other takes it (R144). -/
theorem moveMap_keepsLabels (s : Part) (a b : Loc) (e : CmdEnd) : s.KeepsLabels (s.moveMap a b e) := by
  cases e with
  | ok =>
    unfold Part.moveMap
    dsimp only
    split
    · exact (emptyAt_keepsLabels s a).trans (emptyAt_keepsLabels _ b)
    · exact (emptyAt_keepsLabels s a).trans (setLoc_unlabelled_keepsLabels rfl)
    · intro hs
      refine setLoc_keepsLabels (fun l moved q _ held => ?_) (emptyAt_keepsLabels s a hs)
      by_cases here : q = a
      · subst here
        rw [Part.emptyAt, loc_setLoc_same] at held
        cases held
      · rw [Part.emptyAt, loc_setLoc_ne _ _ _ _ (Ne.symm here)] at held
        exact here (hs.map q a l held moved)
  | sourceEmpty => exact emptyAt_keepsLabels s a
  | targetFull => exact forgetAt_keepsLabels s b
  | doorOpen => exact keepsLabels_refl s
  | mechanism | timeout | faulted =>
    exact keepsLabels_of_tags (congrArg Still.tags ((unknownAt_still _ b).trans (unknownAt_still s a)))

theorem label_foldl_forgetAt (ps : List Loc) (s : Part) (q : Loc) :
    ((ps.foldl Part.forgetAt s).loc q).label = if q ∈ ps then none else (s.loc q).label := by
  induction ps generalizing s with
  | nil => rfl
  | cons p ps ih =>
    rw [List.foldl_cons, ih]
    by_cases here : q = p
    · subst here
      simp [Part.forgetAt, LocRecord.unknown]
    · simp [Part.forgetAt, loc_setLoc_ne _ _ _ _ (Ne.symm here), here]

/-- A scan takes its label from every other record before the record scanned takes it (R132). -/
theorem scanLabel_keepsLabels (s : Part) (p : Loc) (l : Label) : s.KeepsLabels (s.scanLabel p l) := by
  refine (foldl_keepsLabels forgetAt_keepsLabels (locs.filter fun q => q ≠ p ∧ (s.loc q).label = some l) s).trans ?_
  refine setLoc_keepsLabels fun m scanned q other held => ?_
  cases scanned
  rw [label_foldl_forgetAt] at held
  split at held
  · cases held
  · next kept => exact kept (by simp [mem_locs, other, held])

theorem scanMap_keepsLabels (s : Part) (p : Loc) (e : CmdEnd) (l : Option Label) : s.KeepsLabels (s.scanMap p e l) := by
  unfold Part.scanMap
  split
  · split
    · exact scanLabel_keepsLabels s p _
    · exact unlabelledAt_keepsLabels s p
  · exact emptyAt_keepsLabels s p
  · exact keepsLabels_of_tags (congrArg Still.tags (unknownAt_still s p))

/-! ## The Span Table written (R112, R115, R127, R128) -/

/-- A table of few entries with different labels in the place of another, the map's labels left. -/
theorem table_keepsLabels {s t : Part} (map : t.still.tags.map = s.still.tags.map)
    (table : s.Labels → t.span.length ≤ 32 ∧ (t.span.map (·.label)).Nodup) : s.KeepsLabels t := by
  have same : ∀ p, (t.loc p).label = (s.loc p).label := fun p => by rw [← tags_map, map, tags_map]
  exact fun hs => ⟨fun p q l hp hq => hs.map p q l (same p ▸ hp) (same q ▸ hq), table hs⟩

theorem dropSpan_keepsLabels (s : Part) (l : Label) : s.KeepsLabels (s.dropSpan l) :=
  table_keepsLabels rfl fun hs => ⟨(List.length_filter_le _ _).trans hs.span.1, hs.span.2.sublist (List.filter_sublist.map _)⟩

/-- A volume's entry in the place of one of its label, or in one of the 32 places that is free (R112, R115). -/
theorem entered_keepsLabels {s : Part} {v : Volume} (room : s.span.length < 32 ∨ s.findSpan v.label ≠ none) :
    s.KeepsLabels (s.entered v) := by
  have dropped := dropSpan_keepsLabels s v.label
  refine table_keepsLabels rfl fun hs => ⟨?_, ?_⟩
  · have fewer : (s.dropSpan v.label).span.length < 32 := by
      rcases room with few | known
      · exact (List.length_filter_le _ _).trans_lt few
      · obtain ⟨e, found⟩ := Option.ne_none_iff_exists'.mp known
        refine (List.length_filter_lt_length_iff_exists.mpr ⟨e, List.mem_of_find?_eq_some found, ?_⟩).trans_le hs.span.1
        simpa using List.find?_some found
    exact List.length_append.trans_le fewer
  · rw [Part.entered, List.map_append, List.nodup_append]
    refine ⟨(dropped hs).span.2, List.nodup_singleton _, ?_⟩
    rintro a kept b last rfl
    obtain ⟨e, mem, rfl⟩ := List.mem_map.mp kept
    have named : e.label = v.label := List.mem_singleton.mp last
    simp [named] at mem

/-- A matched LABEL echo enters the volume in the table, or faults the lane where the table is full without it (R115). -/
theorem labelVerified_keepsLabels (s : Part) (k : LaneId) : s.KeepsLabels (s.labelVerified k) := by
  unfold Part.labelVerified
  split
  · exact keepsLabels_refl s
  · next v _ =>
    split
    · exact keepsLabels_of_tags (by rw [laneFault_still])
    · next full =>
      have room : s.span.length < 32 ∨ s.findSpan v.label ≠ none := by
        rw [not_and_or, Nat.not_le, Option.isNone_iff_eq_none] at full
        exact full
      refine (entered_keepsLabels room).of_tags ?_
      dsimp only
      split <;> simp only [modLane_still, latch_still, setVerified_still] <;> rfl

/-- Entries read, as many as their bytes were. -/
theorem length_of_allSome {α : Type} {xs : List (Option α)} {ys : List α} (h : allSome xs = some ys) : ys.length = xs.length := by
  induction xs generalizing ys with
  | nil => cases h; rfl
  | cons x xs ih =>
    cases x with
    | none => cases h
    | some x =>
      obtain ⟨zs, rest, rfl⟩ := Option.map_eq_some_iff.mp h
      simp [ih rest]

theorem readImage_labels {n : Nat} {image : List Byte} {es : List SpanEntry} (h : readImage n image = some es) :
    es.length = n ∧ (es.map (·.label)).Nodup := by
  unfold readImage at h
  split at h
  · next read =>
    split at h
    · next nodup =>
      cases h
      exact ⟨by simpa [imageEntries] using length_of_allSome read, nodup⟩
    · cases h
  · cases h

theorem markedBy_label (t : List SpanEntry) (r : LocRecord) : (markedBy t r).label = r.label := by
  unfold markedBy
  split <;> rfl

/-- Records changed one by one into records of the same labels. -/
theorem mapRecords_tags (s : Part) (f : LocRecord → LocRecord) (same : ∀ r, (f r).label = r.label) :
    ({ s with library := { s.library with records := s.library.records.map f } } : Part).still.tags = s.still.tags := by
  simp [Still.tags, Part.still, Function.comp_def, same]

theorem interrupted_label (e : SpanEntry) :
    (if e.mirror = .opened then { e with mirror := .interrupted } else e).label = e.label := by
  split <;> rfl

/-- An image taken becomes the table, the records' states after it (R127). -/
theorem importImage_keepsLabels (s : Part) {n : Nat} (few : n ≤ 32) (image : List Byte) : s.KeepsLabels (s.importImage n image).1 := by
  unfold Part.importImage
  split
  · exact keepsLabels_refl s
  · split
    · exact keepsLabels_refl s
    · next es read =>
      obtain ⟨count, nodup⟩ := readImage_labels read
      refine Part.KeepsLabels.of_tags (t := { s with span := es.map fun e =>
        if e.mirror = .opened then { e with mirror := .interrupted } else e }) (table_keepsLabels rfl fun _ => ⟨?_, ?_⟩) ?_
      · simpa [count] using few
      · simpa [Function.comp_def, interrupted_label] using nodup
      · rw [accepted_fst]
        change (locs.foldl Part.markFromSpan _).still.tags = _
        rw [foldl_markFromSpan]
        exact mapRecords_tags _ _ (markedBy_label _)

/-! ## Operations that leave the labels -/

theorem setReceiver_tags (s : Part) (r : Receiver) : (s.setReceiver r).still.tags = s.still.tags := rfl
@[simp] theorem setChanger_tags (s : Part) (c : Changer) : ({ s with changer := c } : Part).still.tags = s.still.tags := rfl
@[simp] theorem startCommand_tags (s : Part) (c : Command) (id : Nat) : (s.startCommand c id).still.tags = s.still.tags := rfl
@[simp] theorem setUnit_tags (s : Part) (u : DirUnit) : ({ s with unit := u } : Part).still.tags = s.still.tags := rfl
@[simp] theorem setDirSlot_tags (s : Part) (x : DirSlot) : (s.setDirSlot x).still.tags = s.still.tags := rfl
@[simp] theorem enterPending_tags (s : Part) (c : Nat) : (s.enterPending c).still.tags = s.still.tags := rfl
@[simp] theorem readBlock_tags (s : Part) (c : Nat) (lost : Bool) : (s.readBlock c lost).still.tags = s.still.tags := rfl
@[simp] theorem pushClient_tags (s : Part) (id : Nat) (t : Txn) : (s.pushClient id t).still.tags = s.still.tags := rfl
theorem freePort_tags (s : Part) : s.freePort.still.tags = s.still.tags := rfl

theorem foldl_tags {α : Type} (f : Part → α → Part) (h : ∀ s x, (f s x).still.tags = s.still.tags) (xs : List α) (s : Part) :
    (xs.foldl f s).still.tags = s.still.tags := foldl_view (fun s => s.still.tags) f h xs s

/-! ## The changer (R133 to R135, R139 to R149) -/

@[simp] theorem changerFaulted_tags (s : Part) : s.changerFaulted.still.tags = s.still.tags := by
  simp only [Part.changerFaulted, rise_still, latch_still, foldl_still Part.failEntry failEntry_still, setChanger_tags]

@[simp] theorem commandOver_tags (s : Part) (b : Bool) : (s.commandOver b).still.tags = s.still.tags := by
  unfold Part.commandOver
  split <;> rfl

/-- Past the map's change the end of a MOVE leaves the labels. -/
theorem moveEnded_tags (s : Part) (o : OutCommand) (a b : Loc) (e : CmdEnd) :
    (s.moveEnded o a b e).still.tags = (s.moveMap a b e).still.tags := by
  unfold Part.moveEnded
  dsimp only
  repeat' split
  all_goals simp

theorem moveEnded_keepsLabels (s : Part) (o : OutCommand) (a b : Loc) (e : CmdEnd) : s.KeepsLabels (s.moveEnded o a b e) :=
  (moveMap_keepsLabels s a b e).of_tags (moveEnded_tags s o a b e)

/-- Past the map's change the end of a SCAN leaves the labels. -/
theorem scanEnded_tags (s : Part) (o : OutCommand) (p : Loc) (e : CmdEnd) (l : Option Label) :
    (s.scanEnded o p e l).still.tags = (s.scanMap p e l).still.tags := by
  unfold Part.scanEnded
  dsimp only
  repeat' split
  all_goals simp

theorem scanEnded_keepsLabels (s : Part) (o : OutCommand) (p : Loc) (e : CmdEnd) (l : Option Label) :
    s.KeepsLabels (s.scanEnded o p e l) := (scanMap_keepsLabels s p e l).of_tags (scanEnded_tags s o p e l)

theorem magazineOpened_tags (s : Part) (m : Magazine) : (s.magazineOpened m).still.tags = s.still.tags := by
  unfold Part.magazineOpened
  dsimp only
  rw [foldl_still (Part.entryMeetsOpen m) (entryMeetsOpen_still m), foldl_still Part.unknownAt unknownAt_still]
  cases m <;> rfl

theorem magazineClosed_tags (s : Part) (m : Magazine) : (s.magazineClosed m).still.tags = s.still.tags := by
  unfold Part.magazineClosed
  dsimp only
  rw [queueOwn_still]
  cases m <;> rfl

theorem mailLoaded_keepsLabels (s : Part) : s.KeepsLabels s.mailLoaded :=
  (unlabelledAt_keepsLabels s mailSlot).of_tags (congrArg Still.tags (queueOwn_still _ _))

theorem mailEmptied_keepsLabels (s : Part) : s.KeepsLabels s.mailEmptied := emptyAt_keepsLabels s mailSlot

theorem mechanismFault_keepsLabels (s : Part) : s.KeepsLabels s.mechanismFault := by
  unfold Part.mechanismFault
  split
  · exact keepsLabels_refl s
  · split
    · split
      · exact moveEnded_keepsLabels s _ _ _ _
      · exact scanEnded_keepsLabels s _ _ _ _
      · exact keepsLabels_of_tags (changerFaulted_tags s)
    · exact keepsLabels_of_tags (changerFaulted_tags s)

theorem queryOk_keepsLabels (s : Part) (b : Byte) : s.KeepsLabels (s.queryOk b) := by
  have magazine : ∀ (s : Part) m x, s.KeepsLabels (s.showMagazine m x) := by
    intro s m x
    unfold Part.showMagazine
    split
    · exact keepsLabels_refl s
    · split
      · exact keepsLabels_of_tags (magazineOpened_tags s m)
      · exact keepsLabels_of_tags (magazineClosed_tags s m)
  have mail : ∀ (s : Part) x, s.KeepsLabels (s.showMail x) := by
    intro s x
    unfold Part.showMail
    dsimp only
    split
    · split
      · exact keepsLabels_refl s
      · exact mailLoaded_keepsLabels s
    · split
      · exact keepsLabels_refl s
      · exact mailEmptied_keepsLabels s
  have ready : s.KeepsLabels { s with changer := { s.changer with state := .ready, out := none } } := keepsLabels_of_tags rfl
  exact ((ready.trans (magazine _ _ _)).trans (magazine _ _ _)).trans (mail _ _)

/-- A frame either changes the map by the rule of its kind or leaves the labels (R141, R142). -/
theorem takeFrame_keepsLabels (s : Part) (kind : Nat) (ps : List Byte) : s.KeepsLabels (s.takeFrame kind ps) := by
  have stray : s.KeepsLabels s.stray := keepsLabels_of_tags rfl
  unfold Part.takeFrame
  split
  · split
    · split
      · exact moveEnded_keepsLabels s _ _ _ _
      · exact stray
    · exact stray
  · split
    · split
      · split
        · exact scanEnded_keepsLabels s _ _ _ _
        · split
          · exact scanEnded_keepsLabels s _ _ _ _
          · exact stray
      · exact stray
    · exact stray
  · split
    · split
      · exact stray
      · exact stray
      · exact keepsLabels_of_tags rfl
    · split
      · exact queryOk_keepsLabels s _
      · exact stray
    · exact stray
  · split
    · exact keepsLabels_of_tags (magazineOpened_tags s _)
    · exact stray
  · split
    · exact keepsLabels_of_tags (magazineClosed_tags s _)
    · exact stray
  · split
    · exact mailLoaded_keepsLabels s
    · exact stray
  · split
    · exact mailEmptied_keepsLabels s
    · exact stray
  · split
    · exact mechanismFault_keepsLabels s
    · exact stray
  · exact stray

theorem hunt_tags (s : Part) (b : Byte) : (s.hunt b).still.tags = s.still.tags := by
  unfold Part.hunt
  split <;> rfl

theorem receive_keepsLabels (s : Part) (b : Byte) : s.KeepsLabels (s.receive b) := by
  unfold Part.receive
  dsimp only
  split
  · exact keepsLabels_of_tags (hunt_tags s b)
  · split
    · exact keepsLabels_of_tags (hunt_tags s.discardFrame b)
    · split
      · exact keepsLabels_of_tags rfl
      · split
        · split
          · exact (keepsLabels_of_tags (setReceiver_tags s .hunting)).trans (takeFrame_keepsLabels _ _ _)
          · exact keepsLabels_of_tags rfl
        · exact keepsLabels_of_tags rfl

theorem frameGap_tags (s : Part) : s.frameGap.still.tags = s.still.tags := by
  unfold Part.frameGap
  repeat' split
  all_goals rfl

theorem commandStart_tags (s : Part) : s.commandStart.still.tags = s.still.tags := by
  unfold Part.commandStart Part.nextScan
  dsimp only
  repeat' split
  all_goals simp

theorem frameSent_tags (s : Part) : s.frameSent.still.tags = s.still.tags := by
  unfold Part.frameSent
  repeat' split
  all_goals rfl

theorem answerTimer_keepsLabels (s : Part) : s.KeepsLabels s.answerTimer := by
  unfold Part.answerTimer
  split
  · split
    · split
      · exact moveEnded_keepsLabels s _ _ _ _
      · exact scanEnded_keepsLabels s _ _ _ _
      · exact keepsLabels_of_tags rfl
    · exact keepsLabels_refl s
  · exact keepsLabels_refl s

theorem pulseEnd_tags (s : Part) : s.pulseEnd.still.tags = s.still.tags := by
  unfold Part.pulseEnd
  repeat' split
  all_goals rfl

theorem queryRetry_tags (s : Part) : s.queryRetry.still.tags = s.still.tags := by
  unfold Part.queryRetry
  split <;> rfl

@[simp] theorem clearChanger_tags (s : Part) : s.clearChanger.still.tags = s.still.tags := by
  unfold Part.clearChanger
  split <;> rfl

/-! ## Returns and transactions (R94 to R100) -/

theorem judgeEcho_keepsLabels (s : Part) (k : LaneId) (r : Return) : s.KeepsLabels (s.judgeEcho k r) := by
  have matched : ∀ e, s.KeepsLabels (s.echoMatched k e) := by
    intro e
    unfold Part.echoMatched
    dsimp only
    split
    · exact keepsLabels_of_tags (by simp)
    · exact (keepsLabels_of_tags (congrArg Still.tags (modLane_still s k _))).trans (labelVerified_keepsLabels _ k)
    · exact keepsLabels_of_tags (by simp)
  unfold Part.judgeEcho
  dsimp only
  split
  · exact keepsLabels_of_tags rfl
  · split
    · split
      · exact matched _
      · exact keepsLabels_of_tags (by rw [echoFailed_still])
    · exact keepsLabels_refl s

theorem returnDone_keepsLabels (s : Part) (k : LaneId) (r : Return) (kind : ReturnKind) : s.KeepsLabels (s.returnDone k r kind) := by
  cases kind with
  | block =>
    unfold Part.returnDone
    dsimp only
    split
    · exact keepsLabels_of_tags (by simp)
    · exact judgeEcho_keepsLabels s k r
  | ended => exact keepsLabels_of_tags (congrArg Still.tags (seekEnded_still s k false false))
  | faulted f => exact keepsLabels_of_tags (congrArg Still.tags (faultReturn_still s k f))
  | unloaded => exact keepsLabels_of_tags (congrArg Still.tags (unloadedReturn_still s k))

/-- A return write completes a return or leaves the labels. -/
theorem returnWrite_keepsLabels (s : Part) (k : LaneId) (id off : Nat) (bs : List Byte) :
    s.KeepsLabels (s.returnWrite k id off bs) := by
  let begun := if off = 0 then s.modLane k (fun l => { l with ret := none, cut := none }) else s
  have same : begun.still = s.still := by simp only [begun]; split <;> rfl
  have leaves : ∀ t : Part, t.still = begun.still → s.KeepsLabels t := fun t h =>
    keepsLabels_of_tags (congrArg Still.tags (h.trans same))
  unfold Part.returnWrite
  dsimp only
  split
  · split
    · exact leaves _ (by simp [begun])
    · exact leaves _ (by simp [begun])
  · split
    · exact leaves _ (by simp [begun])
    · split
      · exact leaves _ (by simp [begun])
      · split
        · exact leaves _ (by simp [begun])
        · split
          · exact (leaves _ (by simp [begun])).trans (returnDone_keepsLabels _ k _ _)
          · exact leaves _ (by simp [begun])

theorem clientTransaction_keepsLabels (s : Part) (t : Txn) : s.KeepsLabels (s.clientTransaction t) := by
  obtain ⟨id, q, accepted⟩ : ∃ id q, s.accept t = (id, q) := ⟨_, _, rfl⟩
  have same : s.KeepsLabels q := keepsLabels_of_tags (congrArg (fun x => x.2.still.tags) accepted.symm)
  unfold Part.clientTransaction
  rw [accepted]
  dsimp only
  split
  case h_7 => exact same.trans (returnWrite_keepsLabels q _ _ _ _)
  all_goals exact same.of_tags (by simp)

/-! ## The directive slot (R178 to R180, R187) -/

@[simp] theorem compose_tags (s : Part) (r : Result) (d : Nat) : (s.compose r d).still.tags = s.still.tags := by
  unfold Part.compose
  split <;> rfl

@[simp] theorem answerOnly_tags (s : Part) (code : Nat) (r : Result) (d : Nat) : (s.answerOnly code r d).still.tags = s.still.tags :=
  compose_tags _ r d

@[simp] theorem loseDirective_tags (s : Part) : s.loseDirective.still.tags = s.still.tags := by
  unfold Part.loseDirective
  dsimp only
  repeat' split
  all_goals rfl

theorem writesAnswered_tags (s : Part) : s.writesAnswered.still.tags = s.still.tags := by
  obtain ⟨e, -⟩ | ⟨c, lost, -, -, e⟩ := writesAnswered_cases s <;> rw [e]
  rfl

@[simp] theorem setStage_tags (s : Part) (st : Stage) : (s.setStage st).still.tags = s.still.tags := by
  unfold Part.setStage
  split <;> rfl

/-- RESET PART makes INTERRUPTED what is OPEN in map and table, and leaves the labels (R129, R187). -/
@[simp] theorem resetPart_tags (s : Part) : s.resetPart.still.tags = s.still.tags := by
  obtain ⟨ws, cl, e⟩ := resetPart_eq s
  rw [e]
  have records : ∀ r : LocRecord, (if r.state = some .opened then { r with state := some .interrupted } else r).label = r.label := by
    intro r
    split <;> rfl
  have map := congrArg Tags.map (mapRecords_tags s _ records)
  have table : (s.afterResetPart ws cl).still.tags.table = s.still.tags.table := by
    simp [Part.afterResetPart, Part.resetBlocks, Still.tags, Part.still, Function.comp_def, interrupted_label]
  exact congrArg₂ Tags.mk map table

@[simp] theorem takeDirective_tags (s : Part) (code : Nat) : (s.takeDirective code).still.tags = s.still.tags := by
  unfold Part.takeDirective Part.confirmed
  repeat' split
  all_goals simp

theorem resetCommand_tags (s : Part) : s.resetCommand.still.tags = s.still.tags := by
  unfold Part.resetCommand
  repeat' split
  all_goals simp

theorem conclude_keepsLabels {s : Part} (old : Part) (again : Bool) {j : Judged} (h : s.KeepsLabels j.1) :
    s.KeepsLabels (Part.conclude old again j) := by
  refine h.of_tags ?_
  unfold Part.conclude
  dsimp only
  split <;> simp

theorem directive_keepsLabels (s : Part) (code : Nat) {f : Part → Judged} (h : ∀ q : Part, q.KeepsLabels (f q).1) :
    s.KeepsLabels (s.directive code f) := by
  have judged : s.KeepsLabels (f (s.judging code)).1 := (keepsLabels_of_tags (setDirSlot_tags s _)).trans (h _)
  unfold Part.directive
  dsimp only
  split
  · exact conclude_keepsLabels _ _ judged
  · split
    · exact conclude_keepsLabels _ _ judged
    · exact keepsLabels_of_tags (answerOnly_tags s _ _ _)
  · exact keepsLabels_of_tags (loseDirective_tags s)

/-! ## Directives judged -/

/-- A judgement by a check keeps what both of its outcomes keep. -/
theorem ite_keepsLabels {s : Part} {c : Prop} [Decidable c] {a b : Judged} (ha : s.KeepsLabels a.1) (hb : s.KeepsLabels b.1) :
    s.KeepsLabels (if c then a else b).1 := by
  split
  · exact ha
  · exact hb

/-- A record written with the label it has. -/
theorem setLoc_tags {s : Part} {p : Loc} {r : LocRecord} (same : r.label = (s.loc p).label) :
    (s.setLoc p r).still.tags = s.still.tags := by rw [setLoc_still s p r same]

theorem retire_keepsLabels (s : Part) (l : Label) : s.KeepsLabels (s.retire l).1 := by
  unfold Part.retire
  refine ite_keepsLabels (keepsLabels_refl s) ?_
  split
  · exact keepsLabels_refl s
  · exact ite_keepsLabels (keepsLabels_refl s) ((dropSpan_keepsLabels s l).of_tags (setLoc_tags rfl))

theorem forgetVolume_keepsLabels (s : Part) (l : Label) : s.KeepsLabels (s.forgetVolume l).1 := by
  unfold Part.forgetVolume
  split
  · exact keepsLabels_refl s
  · refine ite_keepsLabels (keepsLabels_refl s) ?_
    rw [accepted_fst]
    refine (dropSpan_keepsLabels s l).of_tags (foldl_tags _ (fun s p => ?_) locs _)
    split
    · exact setLoc_tags rfl
    · rfl

theorem importRead_keepsLabels (s : Part) (addr : Nat) (image : List Byte) (last : Bool) :
    s.KeepsLabels (s.importRead addr image last).1 := by
  unfold Part.importRead
  dsimp only
  split
  · exact keepsLabels_of_tags (setStage_tags s _)
  · split
    · exact keepsLabels_refl s
    · next good =>
      exact ite_keepsLabels (keepsLabels_of_tags (setStage_tags s _)) (importImage_keepsLabels s (by omega) image)

/-- Every directive's judgement keeps the labels apart: RETIRE and FORGET VOLUME drop an entry, the others leave the labels. -/
theorem directiveOf_keepsLabels {c : Instr} {code : Nat} {f : Part → Judged} (h : directiveOf c = some (code, f)) (q : Part) :
    q.KeepsLabels (f q).1 := by
  cases c with
  | retire l => cases h; exact retire_keepsLabels q l
  | forgetVolume l => cases h; exact forgetVolume_keepsLabels q l
  | setWindow | setTiming | setAttn | setPool | setTwin | setHold | clearHolds =>
    cases h
    refine keepsLabels_of_tags ?_
    dsimp only [Part.setWindow, Part.setTiming, Part.setAttn, Part.setPool, Part.setTwin, Part.setHold, Part.clearHolds]
    repeat' split
    all_goals rfl
  | openStream | openRecord | endRecord | flushStream | closeStream | append | closeVolume | endRun | holdLane | releaseLane
  | cancelLane | unload | inventory | move | restore | restoreContinue | verifyVolume | exportSpan | importSpan | clearErrors =>
    cases h
    refine keepsLabels_of_tags ?_
    dsimp only [Part.openStream, Part.openRecord, Part.endRecord, Part.flushStream, Part.closeStream, Part.append, Part.closeVolume,
      Part.endRunDirective, Part.holdLane, Part.releaseLane, Part.cancelLane, Part.unloadDirective, Part.inventoryDirective,
      Part.moveDirective, Part.restoreDirective, Part.restoreContinue, Part.verifyDirective, Part.exportSpan, Part.importSpan,
      Part.clearErrors]
    repeat' split
    all_goals simp
  | _ => cases h

theorem carryOut_keepsLabels (s : Part) (code : Nat) (b : List Byte) : s.KeepsLabels (s.carryOut code b) := by
  cases h : readParameters code b with
  | none =>
    rw [carryOut_of_none s h]
    exact keepsLabels_of_tags (answerOnly_tags s _ _ _)
  | some c =>
    obtain ⟨f, hf⟩ := directiveOf_readParameters h
    rw [carryOut_directiveOf s h hf]
    exact conclude_keepsLabels _ _ (directiveOf_keepsLabels hf s)

/-! ## Memory's answers (R24, R26, R38, R180) -/

theorem snoop_tags (s : Part) (t : Txn) : (s.snoop t).still.tags = s.still.tags := by
  unfold Part.snoop
  dsimp only
  repeat' split
  all_goals simp

theorem passedAnswer_tags (s : Part) (ok : Bool) (data : List Byte) : (s.passedAnswer ok data).still.tags = s.still.tags := by
  unfold Part.passedAnswer
  dsimp only
  split
  · rw [writesAnswered_tags]
    split
    · rw [snoop_tags, okay_still, freePort_tags]
    · rw [memoryFault_still, freePort_tags]
  · rfl

theorem parameterAnswered_keepsLabels (s : Part) (ok : Bool) (data : List Byte) : s.KeepsLabels (s.parameterAnswered ok data) := by
  unfold Part.parameterAnswered
  split
  · have released : s.releaseParameters.still.tags = s.still.tags := by
      obtain ⟨_, _, _, _, e⟩ := releaseParameters_sameButTransactions s
      rw [e]
      rfl
    dsimp only
    split
    · exact (keepsLabels_of_tags ((setDirSlot_tags _ _).trans released)).trans (carryOut_keepsLabels _ _ _)
    · exact keepsLabels_of_tags ((compose_tags _ _ _).trans released)
  · exact keepsLabels_refl s

theorem outcomeAnswered_tags (s : Part) (second : Bool) : (s.outcomeAnswered second).still.tags = s.still.tags := by
  unfold Part.outcomeAnswered
  repeat' split
  all_goals rfl

theorem statusAnswered_tags (s : Part) (x : Section) (ok last : Bool) : (s.statusAnswered x ok last).still.tags = s.still.tags := by
  unfold Part.statusAnswered
  dsimp only
  repeat' split
  all_goals rfl

theorem spanWriteAnswered_tags (s : Part) (ok last : Bool) : (s.spanWriteAnswered ok last).still.tags = s.still.tags := by
  unfold Part.spanWriteAnswered
  repeat' split
  all_goals simp

theorem spanReadAnswered_keepsLabels (s : Part) (ok last : Bool) (beats : Nat) (data : List Byte) :
    s.KeepsLabels (s.spanReadAnswered ok last beats data) := by
  unfold Part.spanReadAnswered
  split
  · split
    · exact conclude_keepsLabels _ _ (importRead_keepsLabels s _ _ _)
    · exact keepsLabels_of_tags (by simp)
  · exact keepsLabels_refl s

theorem ownAnswered_keepsLabels (s : Part) (p : OwnKind → Bool) (ok : Bool) (data : List Byte) :
    s.KeepsLabels (s.ownAnswered p ok data) := by
  have free : s.KeepsLabels s.freePort := keepsLabels_of_tags rfl
  unfold Part.ownAnswered
  split
  · split
    · exact keepsLabels_refl s
    · split
      · exact free
      · dsimp only
        split
        · exact free.of_tags (by simp)
        · exact free.of_tags (by simp)
        · exact free.of_tags (by simp)
        · exact free.of_tags (outcomeAnswered_tags _ _)
        · exact free
        · exact free.of_tags (statusAnswered_tags _ _ _ _)
        · exact free.trans (parameterAnswered_keepsLabels _ ok data)
        · exact free.of_tags (spanWriteAnswered_tags _ _ _)
        · exact free.trans (spanReadAnswered_keepsLabels _ _ _ _ _)
  · exact keepsLabels_refl s

/-! ## Commands and steps -/

theorem report_tags (old s : Part) : (report old s).still.tags = s.still.tags := by
  change (report old s).frame.tags = s.frame.tags
  rw [report_frame]

/-- The command is an event whose effect keeps the labels apart. -/
def LabelsKept (c : Instr) : Prop :=
  ∃ f : Part → Part, (∀ s : State, exec c s = event s f) ∧ ∀ s : Part, s.KeepsLabels (f s)

section LabelsKept
variable {c : Instr} {f : Part → Part}

theorem labelsKept_event (e : ∀ s : State, exec c s = event s f) (h : ∀ s : Part, s.KeepsLabels (f s)) : LabelsKept c := ⟨f, e, h⟩

theorem labelsKept_of_tags (e : ∀ s : State, exec c s = event s f) (h : ∀ s : Part, (f s).still.tags = s.still.tags) :
    LabelsKept c := ⟨f, e, fun s => keepsLabels_of_tags (h s)⟩

theorem labelsKept_laneEvent (e : ∀ s : State, exec c s = laneEvent s f) (h : ∀ s : Part, s.KeepsLabels (f s)) : LabelsKept c :=
  ⟨fun p => settle p (f p) false, e, fun s => (h s).of_tags (congrArg Still.tags (settle_still _ _ _))⟩

theorem labelsKept_lane_of_tags (e : ∀ s : State, exec c s = laneEvent s f) (h : ∀ s : Part, (f s).still.tags = s.still.tags) :
    LabelsKept c := labelsKept_laneEvent e fun s => keepsLabels_of_tags (h s)

theorem labelsKept_kindEvent {t : Txn} {p : Treatment → Bool} (e : ∀ s : State, exec c s = kindEvent s t p) : LabelsKept c := by
  refine labelsKept_laneEvent e fun s => ?_
  split
  · exact clientTransaction_keepsLabels s t
  · exact keepsLabels_refl s

end LabelsKept

/-- Every command but RESETN's is an event that keeps the labels apart. -/
theorem exec_labelsKept (c : Instr) (notLow : c ≠ .resetnLow) (notHigh : ∀ d a l, c ≠ .resetnHigh d a l) : LabelsKept c := by
  cases hd : directiveOf c with
  | some d =>
    obtain ⟨code, f⟩ := d
    exact labelsKept_event (exec_directiveOf hd) fun s => directive_keepsLabels s code (directiveOf_keepsLabels hd)
  | none =>
    have still : ∀ f : Part → Part, (∀ s, exec c s = event s f) → (∀ s, (f s).still = s.still) → LabelsKept c := fun f e h =>
      labelsKept_of_tags e fun s => congrArg Still.tags (h s)
    have lane : ∀ f : Part → Part, (∀ s, exec c s = laneEvent s f) → (∀ s, (f s).still = s.still) → LabelsKept c := fun f e h =>
      labelsKept_lane_of_tags e fun s => congrArg Still.tags (h s)
    have sent : ∀ kind ps, (∀ s, exec c s = laneEvent s (fun p => p.takeFrame kind ps)) → LabelsKept c := fun kind ps e =>
      labelsKept_laneEvent e fun s => takeFrame_keepsLabels s kind ps
    have own : ∀ p ok data, (∀ s, exec c s = event s (fun q => q.ownAnswered p ok data)) → LabelsKept c := fun p ok data e =>
      labelsKept_event e fun s => ownAnswered_keepsLabels s p ok data
    have taken : ∀ code, (∀ s, exec c s = event s (fun q => q.takeDirective code)) → LabelsKept c := fun code e =>
      labelsKept_of_tags e fun s => takeDirective_tags s code
    cases c with
    | resetnLow => exact absurd rfl notLow
    | resetnHigh d a l => exact absurd rfl (notHigh d a l)
    | clientTransaction t => exact labelsKept_laneEvent (fun _ => rfl) (clientTransaction_keepsLabels · t)
    | passedThroughAnswer ok data => exact labelsKept_lane_of_tags (fun _ => rfl) (passedAnswer_tags · ok data)
    | conditionMaskWrite => exact labelsKept_of_tags (fun _ => rfl) fun _ => rfl
    | conditionWordRead t => exact labelsKept_kindEvent (t := t) (p := fun y => y == .cond) fun _ => rfl
    | intakeWrite t => exact labelsKept_kindEvent (t := t) (p := fun y => match y with | .intake .. => true | _ => false) fun _ => rfl
    | holdTimer n => exact still _ (fun _ => rfl) (holdTimer_still · n)
    | encoderTakeByte i => exact still _ (fun _ => rfl) (encoderTakeByte_still · i)
    | encoderDecision i => exact still _ (fun _ => rfl) (encoderDecision_still · i)
    | idleTimer i => exact still _ (fun _ => rfl) (idleTimer_still · i)
    | segmentAppend k => exact lane _ (fun _ => rfl) (workHead_still · k)
    | blockIdleTimer k => exact lane _ (fun _ => rfl) (blockIdleTimer_still · k)
    | sendRead t => exact labelsKept_kindEvent (t := t) (p := fun y => match y with | .send .. => true | _ => false) fun _ => rfl
    | poolReadAnswered => exact own _ _ _ fun _ => rfl
    | partialReadTimer k => exact lane _ (fun _ => rfl) (partialReadTimer_still · k)
    | returnWrite t => exact labelsKept_kindEvent (t := t) (p := fun y => match y with | .ret .. => true | _ => false) fun _ => rfl
    | echoTimer k => exact lane _ (fun _ => rfl) (echoTimer_still · k)
    | returnTimer k => exact lane _ (fun _ => rfl) (returnTimer_still · k)
    | ownAccessAnswered => exact own _ _ _ fun _ => rfl
    | statusUpdateAnswered => exact own _ _ _ fun _ => rfl
    | parameterReadAnswered => exact own _ _ _ fun _ => rfl
    | outcomeWriteAnswered => exact own _ _ _ fun _ => rfl
    | directiveLost => exact taken _ fun _ => rfl
    | emptyCode => exact taken _ fun _ => rfl
    | confirm => exact taken _ fun _ => rfl
    | unknownCode => exact taken _ fun _ => rfl
    | resetPart => exact labelsKept_of_tags (fun _ => rfl) resetCommand_tags
    | changerCommandStart => exact labelsKept_lane_of_tags (fun _ => rfl) commandStart_tags
    | moveAnswer => exact sent _ _ fun _ => rfl
    | scanAnswer => exact sent _ _ fun _ => rfl
    | queryAnswer => exact sent _ _ fun _ => rfl
    | answerTimer => exact labelsKept_laneEvent (fun _ => rfl) answerTimer_keepsLabels
    | queryRetry => exact labelsKept_of_tags (fun _ => rfl) queryRetry_tags
    | magazineOpened => exact sent _ _ fun _ => rfl
    | magazineClosed => exact sent _ _ fun _ => rfl
    | mailSlotLoaded => exact sent _ _ fun _ => rfl
    | mailSlotEmptied => exact sent _ _ fun _ => rfl
    | mechanismFault => exact sent _ _ fun _ => rfl
    | stray => exact sent _ _ fun _ => rfl
    | framingDiscard b => exact labelsKept_laneEvent (fun _ => rfl) (receive_keepsLabels · b)
    | frameGap => exact labelsKept_of_tags (fun _ => rfl) frameGap_tags
    | unpackSegment k => exact lane _ (fun _ => rfl) (unpackSegment_still · k)
    | attnPulseEnd => exact labelsKept_of_tags (fun _ => rfl) pulseEnd_tags
    | commandFrameSent => exact labelsKept_of_tags (fun _ => rfl) frameSent_tags
    | _ => cases hd

/-- A hard reset leaves no label in map or table (R39, R150). -/
theorem resetHigh_labels (s : Part) (dab : BitVec 4) (atm lnc : Bool) : (s.resetHigh dab atm lnc).Labels := by
  refine keepsLabels_of_tags (s := s.hardReset dab atm lnc) (report_tags _ _) ⟨fun p q l hp => ?_, Nat.zero_le _, List.nodup_nil⟩
  simp [Part.hardReset, Part.loc, Library.blank, LocRecord.unknown] at hp

theorem exec_labels {s t : State} {c : Instr} (e : exec c s = .next t) (hs : s.Labels) : t.Labels := by
  by_cases notLow : c = .resetnLow
  · subst notLow
    obtain rfl := Host.Outcome.next.inj e
    exact keepsLabels_of_tags (s := s.toPart) rfl hs
  · by_cases notHigh : ∀ d a l, c ≠ .resetnHigh d a l
    · obtain ⟨f, event', keeps⟩ := exec_labelsKept c notLow notHigh
      rw [event'] at e
      obtain rfl | ⟨-, part⟩ := event_cases e
      · exact hs
      · rw [part]
        exact keepsLabels_of_tags (report_tags _ _) (keeps s.toPart hs)
    · push Not at notHigh
      obtain ⟨d, a, l, rfl⟩ := notHigh
      obtain rfl := Host.Outcome.next.inj e
      dsimp only
      split
      · exact resetHigh_labels _ _ _ _
      · exact hs

/-- Settles O58: idling leaves the labels, and every command keeps them apart by `exec_labels`. -/
theorem stepKeepsLabels : Obligations.StepKeepsLabels := by
  intro s t hs e
  unfold step at e
  split at e
  · cases e
    exact keepsLabels_of_tags (s := s.toPart) rfl hs
  · exact exec_labels e ⟨hs.map, hs.span⟩

end Sys2Proof.Machine
end

section
/-! SUPPORT. RETIRE and FORGET VOLUME by their checks (R128, R138). Settles O43. -/

namespace Sys2Proof.Machine

/-! ## RETIRE (R138) -/

theorem bay_of_bayLane {p : Loc} {k : LaneId} (h : bayLane p = some k) : p = bay k := by
  unfold bayLane at h
  split at h
  · next left => cases h; exact left
  · split at h
    · next right => cases h; exact right
    · cases h

theorem spanOpen_false {s : Part} {l : Label} (shut : ∀ e, s.findSpan l = some e → e.mirror ≠ .opened) : s.spanOpen l = false := by
  unfold Part.spanOpen
  split
  · next e found => exact beq_eq_false_iff_ne.mpr (shut e found)
  · rfl

/-- RETIRE of a label of valid format whose cartridge stands at `p`, by its checks in the order of R138. -/
theorem retire_found {s : Part} {l : Label} {p : Loc} (valid : validLabel l = true) (found : s.findLabel l = some p) :
    (l ∈ s.library.holds → s.retire l = s.refused .state)
    ∧ (l ∉ s.library.holds → (s.loc p).state ≠ some .opened → (∀ e, s.findSpan l = some e → e.mirror ≠ .opened) →
      (∀ k, p = bay k → (s.lane k).state = .empty ∨ (s.lane k).state = .idle) →
      s.retire l = ((s.dropSpan l).setLoc p { s.loc p with state := some .scratch, verified := false }).accepted
        (if s.findSpan l = none then 0 else 1)) := by
  have named : ¬ (!validLabel l) = true := by simp [valid]
  unfold Part.retire
  rw [if_neg named, found]
  dsimp only
  refine ⟨fun held => if_pos (by simp [held]), fun free closed shut rests => ?_⟩
  have detail : (if (s.findSpan l).isSome = true then 1 else 0) = if s.findSpan l = none then 0 else 1 := by
    cases s.findSpan l <;> rfl
  rw [detail]
  refine if_neg ?_
  cases here : bayLane p with
  | none => simp [free, closed, spanOpen_false shut]
  | some k =>
    have resting : (s.lane k).resting = true := by simpa [Lane.resting] using rests k (bay_of_bayLane here)
    simp [free, closed, spanOpen_false shut, resting]

/-! ## FORGET VOLUME (R128) -/

/-- Every record changed by `f`, one after the other. -/
theorem foldl_setLoc (f : LocRecord → LocRecord) (s : Part) : locs.foldl (fun s p => s.setLoc p (f (s.loc p))) s
    = { s with library := { s.library with records := s.library.records.map f } } := by
  have step : ∀ (ps : List Loc) (s : Part), ps.foldl (fun s p => s.setLoc p (f (s.loc p))) s
      = { s with library := { s.library with records := ps.foldl (fun v (p : Loc) => v.set p (f v[p])) s.library.records } } := by
    intro ps
    induction ps with
    | nil => exact fun _ => rfl
    | cons p ps ih => exact fun s => ih _
  rw [step]
  exact congrArg (fun v => { s with library := { s.library with records := v } }) (foldl_set_eq_map f _)

/-- A record of the label `l` becomes FOREIGN and not VERIFIED (R128). -/
def forgotten (l : Label) (r : LocRecord) : LocRecord :=
  if r.label = some l then { r with state := some .foreign, verified := false } else r

/-- FORGET VOLUME of a label with a span entry, by its checks in the order of R128. -/
theorem forgetVolume_found {s : Part} {l : Label} {e : SpanEntry} (found : s.findSpan l = some e) :
    (l ∈ s.library.holds ∨ e.mirror = .opened → s.forgetVolume l = s.refused .state)
    ∧ (l ∉ s.library.holds → e.mirror ≠ .opened → (∀ k, (s.lane k).restore = none ∧ (s.lane k).verify = none) →
      s.forgetVolume l = Part.accepted { s with
        span := s.span.filter (fun e => e.label ≠ l)
        library := { s.library with records := s.library.records.map (forgotten l) } } 0) := by
  unfold Part.forgetVolume
  rw [found]
  dsimp only
  refine ⟨fun bars => if_pos ?_, fun free closed jobs => (if_neg ?_).trans ?_⟩
  · rcases bars with held | opened
    · simp [held]
    · simp [opened]
  · simp [free, closed, jobs]
  · have mark : (fun (s : Part) (p : Loc) =>
        if (s.loc p).label = some l then s.setLoc p { s.loc p with state := some .foreign, verified := false } else s)
        = fun s p => s.setLoc p (forgotten l (s.loc p)) := by
      funext s p
      unfold forgotten
      split
      · rfl
      · exact (setLoc_loc s p).symm
    rw [mark, foldl_setLoc]
    rfl

/-- Settles O43: the checks of `retire_found` and `forgetVolume_found`. -/
theorem retireAndForget : Obligations.RetireAndForget := by
  refine ⟨fun s l takes => ⟨fun invalid => ?_, fun valid absent => ?_, fun p valid found held => ?_,
    fun p valid found free closed shut rests => ?_⟩, fun s l takes => ⟨fun absent => ?_, fun e found bars => ?_,
    fun e found free closed jobs => ?_⟩⟩
  · exact judges_refused (c := .retire l) rfl takes (if_pos (by simp [invalid]))
  · have missing : (s.judging 0x54).findLabel l = none := absent
    refine judges_refused (c := .retire l) rfl takes ((if_neg (by simp [valid])).trans ?_)
    rw [missing]
  · exact judges_refused (c := .retire l) rfl takes ((retire_found (s := s.judging 0x54) valid found).1 held)
  · exact judges_of (c := .retire l) rfl takes ((retire_found (s := s.judging 0x54) valid found).2 free closed shut rests)
  · have missing : (s.judging 0x72).findSpan l = none := absent
    refine judges_refused (c := .forgetVolume l) rfl takes ?_
    rw [Part.forgetVolume, missing]
  · exact judges_refused (c := .forgetVolume l) rfl takes ((forgetVolume_found (s := s.judging 0x72) found).1 bars)
  · exact judges_of (c := .forgetVolume l) rfl takes ((forgetVolume_found (s := s.judging 0x72) found).2 free closed jobs)

end Sys2Proof.Machine
end

section
/-! SUPPORT. A span entry written into an image and read back (R126, R191). Settles O55. -/

namespace Sys2Proof.Machine

/-! ## Slices of bytes in order -/

theorem slice_append_right (as bs : List Byte) (off k : Nat) : slice (as ++ bs) (as.length + off) k = slice bs off k := by
  rw [slice, List.drop_length_add_append, slice]

theorem slice_slice (bs : List Byte) (off k o m : Nat) (inside : o + m ≤ k) : slice (slice bs off k) o m = slice bs (off + o) m := by
  simp only [slice, List.drop_take, List.take_take, List.drop_drop]
  rw [Nat.min_eq_left (by omega)]

/-- The chunk of a number in a run of chunks of one length. -/
theorem slice_flatMap {α : Type} {f : α → List Byte} {n : Nat} (xs : List α) (len : ∀ x ∈ xs, (f x).length = n) (tail : List Byte)
    (i : Nat) (small : i < xs.length) : slice (xs.flatMap f ++ tail) (n * i) n = f xs[i] := by
  induction xs generalizing i with
  | nil => cases small
  | cons x xs ih =>
    have first : (f x).length = n := len x List.mem_cons_self
    rw [List.flatMap_cons, List.append_assoc]
    cases i with
    | zero => simp [slice, ← first]
    | succ i =>
      have place : n * (i + 1) = (f x).length + n * i := by rw [first]; ring
      rw [place, slice_append_right]
      exact ih (fun y mem => len y (List.mem_cons_of_mem x mem)) i (Nat.lt_of_succ_lt_succ small)

theorem length_flatMap_const {α : Type} {f : α → List Byte} {n : Nat} (xs : List α) (len : ∀ x ∈ xs, (f x).length = n) :
    (xs.flatMap f).length = n * xs.length := by
  rw [List.length_flatMap, List.map_congr_left len, List.map_const', List.sum_replicate, smul_eq_mul, Nat.mul_comm]

theorem zeros_len (n : Nat) : (zeros n).length = n := List.length_replicate

/-- Filling adds bytes of 0x00 behind what fits. -/
theorem padTo_fill {n : Nat} {bs : List Byte} (fits : bs.length ≤ n) : padTo n bs = bs ++ zeros (n - bs.length) := by
  refine List.take_of_length_le ?_
  rw [List.length_append, zeros_len]
  omega

/-! ## Stream ranges (R191) -/

theorem rangeBytes_length (r : StreamRange) : (rangeBytes r).length = 36 := by simp [rangeBytes]

theorem streamArg_byteOf (i : Fin 8) : streamArg (byteOf i.val) = some i := streamArg_ofNat i

/-- A flag byte gives back its three flags. -/
theorem flags_byteOf (a b c : Bool) :
    let x := byteOf ((if a then 1 else 0) + (if b then 2 else 0) + (if c then 4 else 0))
    x.getLsbD 0 = a ∧ x.getLsbD 1 = b ∧ x.getLsbD 2 = c := by
  revert a b c
  decide

/-- The numbers of a stream range fit their fields of 4 bytes. -/
structure StreamRange.Fits (r : StreamRange) : Prop where
  first : r.first.record < 2 ^ 32 ∧ r.first.index < 2 ^ 32
  last : r.last.record < 2 ^ 32 ∧ r.last.index < 2 ^ 32
  blocks : r.firstBlock < 2 ^ 32 ∧ r.lastBlock < 2 ^ 32
  continuation : ∀ c, r.continuation = some c → c.1 < 2 ^ 32 ∧ c.2 < 2 ^ 32

/-- What a range's bytes show before the numbers are read back: each field's bytes stand at its offset. -/
theorem readRange_fields (r : StreamRange) : readRange (rangeBytes r) = (streamArg (byteOf r.stream.val)).map (fun t =>
    let flags := byteOf ((if r.first.flag then 1 else 0) + (if r.last.flag then 2 else 0) + (if r.continuation.isSome then 4 else 0))
    let four := fun n => leNat (leBytes 4 n)
    { stream := t
      first := ⟨four r.first.record, four r.first.index, flags.getLsbD 0⟩
      last := ⟨four r.last.record, four r.last.index, flags.getLsbD 1⟩
      firstBlock := four r.firstBlock
      lastBlock := four r.lastBlock
      continuation := if flags.getLsbD 2 then
          some (four (r.continuation.getD (0, 0)).1, four (r.continuation.getD (0, 0)).2) else none }) := rfl

theorem readRange_rangeBytes {r : StreamRange} (fits : r.Fits) : readRange (rangeBytes r) = some r := by
  obtain ⟨⟨firstRecord, firstIndex⟩, ⟨lastRecord, lastIndex⟩, ⟨firstBlock, lastBlock⟩, continued⟩ := fits
  obtain ⟨first, last, more⟩ := flags_byteOf r.first.flag r.last.flag r.continuation.isSome
  have four : ∀ n, n < 2 ^ 32 → leNat (leBytes 4 n) = n := fun n small => leNat_leBytes_lt 4 n small
  have continuation : (if r.continuation.isSome = true then
      some (leNat (leBytes 4 (r.continuation.getD (0, 0)).1), leNat (leBytes 4 (r.continuation.getD (0, 0)).2)) else none)
      = r.continuation := by
    cases h : r.continuation with
    | none => rfl
    | some c =>
      obtain ⟨record, index⟩ := continued c h
      simp [four _ record, four _ index]
  rw [readRange_fields, streamArg_byteOf]
  dsimp only at first last more ⊢
  rw [first, last, more, continuation]
  simp only [four, firstRecord, firstIndex, lastRecord, lastIndex, firstBlock, lastBlock]
  rfl

/-! ## Entries (R126, R191) -/

/-- The first 32 bytes of an image entry. -/
def entryHead (e : SpanEntry) : List Byte :=
  labelBytes e.label ++ leBytes 2 e.set ++ leBytes 2 e.number
  ++ [boolByte e.twin, byteOf e.mirror.num, byteOf e.cause.num, boolByte e.eovVerified]
  ++ leBytes 4 e.positions ++ leBytes 4 e.verified ++ [byteOf e.runs.length, byteOf e.ranges.length, 0, 0]
  ++ leBytes 4 e.absentFrom

/-- A run of rewritten sequences in an image entry. -/
def runBytes (r : Nat × Nat) : List Byte := leBytes 4 r.1 ++ leBytes 4 r.2

theorem entryHead_length (e : SpanEntry) : (entryHead e).length = 32 := by simp [entryHead, labelBytes]

/-- An entry's bytes: the head, 64 bytes of runs, 288 of ranges, and zeros. -/
theorem entryBytes_eq {e : SpanEntry} (runs : e.runs.length ≤ 8) (ranges : e.ranges.length ≤ 8) :
    entryBytes e = entryHead e ++ (e.runs.flatMap runBytes ++ zeros (64 - 8 * e.runs.length)
      ++ (e.ranges.flatMap rangeBytes ++ (zeros (288 - 36 * e.ranges.length) ++ zeros 128))) := by
  have runsLength : (e.runs.flatMap runBytes).length = 8 * e.runs.length :=
    length_flatMap_const _ fun r _ => by simp [runBytes]
  have rangesLength : (e.ranges.flatMap rangeBytes).length = 36 * e.ranges.length :=
    length_flatMap_const _ fun r _ => rangeBytes_length r
  have headLength := entryHead_length e
  have parts : entryBytes e = padTo 512 (entryHead e ++ padTo 64 (e.runs.flatMap runBytes) ++ padTo 288 (e.ranges.flatMap rangeBytes)) :=
    rfl
  rw [parts, padTo_fill (n := 64) (by omega), padTo_fill (n := 288) (by omega), padTo_fill]
  · simp only [List.append_assoc, List.length_append, headLength, runsLength, rangesLength, zeros_len]
    congr 6
    omega
  · simp only [List.length_append, headLength, runsLength, rangesLength, zeros_len]
    omega

section Entry
variable {e : SpanEntry} (runs : e.runs.length ≤ 8) (ranges : e.ranges.length ≤ 8)
include runs ranges

theorem slice_entry_run (i : Nat) (small : i < e.runs.length) : slice (entryBytes e) (32 + 8 * i) 8 = runBytes e.runs[i] := by
  rw [entryBytes_eq runs ranges, ← entryHead_length e, slice_append_right, List.append_assoc]
  exact slice_flatMap _ (fun r _ => by simp [runBytes]) _ i small

theorem slice_entry_range (i : Nat) (small : i < e.ranges.length) :
    slice (entryBytes e) (96 + 36 * i) 36 = rangeBytes e.ranges[i] := by
  have before : 96 + 36 * i
      = (entryHead e ++ (e.runs.flatMap runBytes ++ zeros (64 - 8 * e.runs.length))).length + 36 * i := by
    have runsLength : (e.runs.flatMap runBytes).length = 8 * e.runs.length :=
      length_flatMap_const _ fun r _ => by simp [runBytes]
    simp only [List.length_append, entryHead_length, runsLength, zeros_len]
    omega
  rw [entryBytes_eq runs ranges, before, ← List.append_assoc, slice_append_right]
  exact slice_flatMap _ (fun r _ => rangeBytes_length r) _ i small

/-- The runs read back from an entry's bytes. -/
theorem entry_runs (fit : ∀ r ∈ e.runs, r.1 < 2 ^ 32 ∧ r.2 < 2 ^ 32) :
    (List.range e.runs.length).map (fun i => (field (entryBytes e) (32 + 8 * i) 4, field (entryBytes e) (36 + 8 * i) 4)) = e.runs := by
  refine List.ext_getElem (by simp) fun i _ small => ?_
  obtain ⟨first, last⟩ := fit _ (List.getElem_mem small)
  have chunk := slice_entry_run runs ranges i small
  have firstField : field (entryBytes e) (32 + 8 * i) 4 = leNat (leBytes 4 e.runs[i].1) := by
    have inside := slice_slice (entryBytes e) (32 + 8 * i) 8 0 4 (by decide)
    rw [chunk] at inside
    exact congrArg leNat inside.symm
  have lastField : field (entryBytes e) (36 + 8 * i) 4 = leNat (leBytes 4 e.runs[i].2) := by
    have inside := slice_slice (entryBytes e) (32 + 8 * i) 8 4 4 (by decide)
    rw [chunk, show 32 + 8 * i + 4 = 36 + 8 * i by omega] at inside
    exact congrArg leNat inside.symm
  rw [List.getElem_map, List.getElem_range, firstField, lastField, leNat_leBytes_lt 4 _ first, leNat_leBytes_lt 4 _ last]

/-- The ranges read back from an entry's bytes. -/
theorem entry_ranges (fit : ∀ r ∈ e.ranges, r.Fits) :
    allSome ((List.range e.ranges.length).map (fun i => readRange (slice (entryBytes e) (96 + 36 * i) 36))) = some e.ranges := by
  rw [← allSome_map_some]
  refine congrArg allSome (List.ext_getElem (by simp) fun i _ small => ?_)
  have inside : i < e.ranges.length := by simpa using small
  rw [List.getElem_map, List.getElem_map, List.getElem_range, slice_entry_range runs ranges i inside]
  exact readRange_rangeBytes (fit _ (List.getElem_mem inside))

end Entry

theorem mirrorOf_num {m : CartState} (h : m = .opened ∨ m = .full ∨ m = .interrupted ∨ m = .suspect) :
    mirrorOf (byteOf m.num) = some m := by
  rcases h with rfl | rfl | rfl | rfl <;> rfl

theorem causeOf_num (c : SuspectCause) : causeOf (byteOf c.num) = some c := by
  cases c <;> rfl

theorem boolByte_shows (b : Bool) : (boolByte b == 1) = b ∧ (boolByte b).getLsbD 0 = b ∧ ¬ 1 < (boolByte b).toNat := by
  cases b <;> decide

/-- The bytes of the head, whatever stands behind them. -/
theorem entryHead_bytes (e : SpanEntry) (rest : List Byte) :
    let b := entryHead e ++ rest
    byteAt b 12 = boolByte e.twin ∧ byteAt b 13 = byteOf e.mirror.num ∧ byteAt b 14 = byteOf e.cause.num
    ∧ byteAt b 15 = boolByte e.eovVerified ∧ byteAt b 24 = byteOf e.runs.length ∧ byteAt b 25 = byteOf e.ranges.length :=
  ⟨rfl, rfl, rfl, rfl, rfl, rfl⟩

/-- The label and the fields of the head, whatever stands behind them. -/
theorem entryHead_fields (e : SpanEntry) (rest : List Byte) :
    let b := entryHead e ++ rest
    labelAt b 0 = e.label ∧ field b 8 2 = leNat (leBytes 2 e.set) ∧ field b 10 2 = leNat (leBytes 2 e.number)
    ∧ field b 16 4 = leNat (leBytes 4 e.positions) ∧ field b 20 4 = leNat (leBytes 4 e.verified)
    ∧ field b 28 4 = leNat (leBytes 4 e.absentFrom) :=
  ⟨rfl, rfl, rfl, rfl, rfl, rfl⟩

/-- A valid entry stands at positions that its field of 4 bytes holds, has at most one range for each stream, and its ranges end
within the sequences verified (R126). -/
theorem valid_bounds {e : SpanEntry} (valid : e.valid = true) :
    e.positions < 2 ^ 32 ∧ e.ranges.length ≤ 8 ∧ ∀ r ∈ e.ranges, r.firstBlock ≤ e.verified ∧ r.lastBlock ≤ e.verified := by
  simp only [SpanEntry.valid, Bool.and_eq_true, decide_eq_true_eq, List.all_eq_true] at valid
  obtain ⟨⟨⟨⟨-, capacity⟩, distinct⟩, ranges⟩, -⟩ := valid
  have classes : ∀ c, classCapacity c < 2 ^ 32 := by
    intro c
    unfold classCapacity
    split <;> decide
  refine ⟨capacity.trans_lt (classes _), ?_, fun r mem => ?_⟩
  · simpa using distinct.length_le_card
  · obtain ⟨⟨-, first⟩, last⟩ := ranges r mem
    exact ⟨first.trans last, last⟩

/-- Settles O55: the head by `entryHead_bytes` and `entryHead_fields`, the rest by `entry_runs` and `entry_ranges`. -/
theorem spanEntriesReadBack : Obligations.SpanEntriesReadBack := by
  intro e valid set number verified absent mirror runs runsFit rangesFit
  obtain ⟨positions, ranges, blocks⟩ := valid_bounds valid
  have fit : ∀ r ∈ e.ranges, r.Fits := fun r mem => by
    obtain ⟨firstRecord, firstIndex, lastRecord, lastIndex, continued⟩ := rangesFit r mem
    obtain ⟨first, last⟩ := blocks r mem
    exact ⟨⟨firstRecord, firstIndex⟩, ⟨lastRecord, lastIndex⟩, ⟨first.trans_lt verified, last.trans_lt verified⟩, continued⟩
  obtain ⟨rest, bytes⟩ : ∃ rest, entryBytes e = entryHead e ++ rest := ⟨_, entryBytes_eq runs ranges⟩
  obtain ⟨twin, state, cause, eov, nr, nt⟩ := entryHead_bytes e rest
  obtain ⟨label, setField, numberField, positionsField, verifiedField, absentField⟩ := entryHead_fields e rest
  rw [← bytes] at twin state cause eov nr nt label setField numberField positionsField verifiedField absentField
  have runCount : (byteOf e.runs.length).toNat = e.runs.length := by rw [byteOf_toNat]; omega
  have rangeCount : (byteOf e.ranges.length).toNat = e.ranges.length := by rw [byteOf_toNat]; omega
  obtain ⟨twinShown, -, twinFlag⟩ := boolByte_shows e.twin
  obtain ⟨-, eovShown, -⟩ := boolByte_shows e.eovVerified
  have few : ¬ (8 < e.runs.length ∨ 8 < e.ranges.length ∨ 1 < (boolByte e.twin).toNat) := by omega
  unfold readEntry
  simp only [twin, state, cause, eov, nr, nt, label, setField, numberField, positionsField, verifiedField, absentField, runCount,
    rangeCount, if_neg few, mirrorOf_num mirror, causeOf_num, entry_ranges runs ranges fit, entry_runs runs ranges runsFit,
    twinShown, eovShown, leNat_leBytes_lt 2 _ set, leNat_leBytes_lt 2 _ number, leNat_leBytes_lt 4 _ positions,
    leNat_leBytes_lt 4 _ verified, leNat_leBytes_lt 4 _ absent]
  exact if_pos valid

end Sys2Proof.Machine
end

section
/-! SUPPORT. APPEND: its checks, and the choice of the cartridges in the bays (R113 to R115, R124). Settles O37. -/

namespace Sys2Proof.Machine

/-! ## The checks (R113) -/

/-- A lane at work, or with its run open (R113). -/
abbrev Lane.engaged (l : Lane) : Prop := l.run.isOpen = true ∨ (l.state ≠ .empty ∧ l.state ≠ .idle)

theorem engaged_iff (l : Lane) : (l.run.isOpen || !l.resting) = true ↔ l.engaged := by
  simp [Lane.engaged, Lane.resting]

/-- APPEND by its checks in the order of R113, up to the choice. -/
theorem append_cases {s : Part} {k : LaneId} (present : s.present k = true) (slot : Byte) (set : Nat) :
    let appends := s.append (BitVec.ofNat 8 k.num) slot set
    let parameter := set = 0 ∨ 24 < slot.toNat ∨ (s.twin.on = true ∧ k ≠ s.twin.primary)
    let state := s.pool.geometry = none ∨ (s.lane k).engaged ∨ (s.twin.on = true ∧ (s.lane k.other).engaged)
    (parameter → appends = s.refused .parameter)
    ∧ (¬ parameter → state → appends = s.refused .state)
    ∧ (¬ parameter → ¬ state → slot ≠ 0 → (∀ p, (s.loc p).occ = .occupied → s.rankOf k p ≠ some slot.toNat) →
        appends = s.refused .notFound)
    ∧ (¬ parameter → ¬ state → slot = 0 → appends = Part.accepted
        (if s.twin.on then (((s.openRun k .primary set 0).chooseScratch k).openRun k.other .twin set 0).chooseScratch k.other
          else (s.openRun k .single set 0).chooseScratch k) 0) := by
  intro appends parameter state
  simp only [appends, Part.append, laneArg_ofNat s k present, engaged_iff]
  refine ⟨fun bad => if_pos bad, fun good bad => ?_, fun good ready named nowhere => ?_, fun good ready any => ?_⟩
  all_goals rw [if_neg good]
  · exact if_pos bad
  · rw [if_neg ready]
    refine if_pos ⟨fun zero => named (BitVec.eq_of_toNat_eq zero), ?_⟩
    refine List.any_eq_false.mpr fun p _ => ?_
    simpa using nowhere p
  · subst any
    rw [if_neg ready, if_neg (fun c => c.1 rfl), if_neg (fun c => c.1 rfl)]
    cases s.twin.on <;> rfl

/-! ## The cartridge in the bay chosen (R114) -/

theorem bay_beyond_slots (k : LaneId) : ¬ (bay k).val < 24 := by cases k <;> decide

/-- A cartridge in the lane's bay is chosen with the home slot it has. -/
theorem rankOf_bay (s : Part) (k : LaneId) : ∃ n, s.rankOf k (bay k) = some n
    ∧ (if n ≤ 24 then some n else (s.loc (bay k)).home) = (s.loc (bay k)).home := by
  unfold Part.rankOf
  rw [if_neg (bay_beyond_slots k), if_pos rfl]
  cases home : (s.loc (bay k)).home with
  | none => exact ⟨25, rfl, rfl⟩
  | some h =>
    by_cases slot : h ≤ 24
    · exact ⟨h, by simp [slot], if_pos slot⟩
    · exact ⟨25, by simp [slot], rfl⟩

theorem rankOf_other_bay (s : Part) (k : LaneId) : s.rankOf k (bay k.other) = none := by
  unfold Part.rankOf
  rw [if_neg (bay_beyond_slots k.other), if_neg (by cases k <;> decide)]

/-- The one element of a list without repeats that a map keeps. -/
theorem filterMap_single {α β : Type} {f : α → Option β} {xs : List α} {a : α} {b : β} (nodup : xs.Nodup) (mem : a ∈ xs)
    (kept : f a = some b) (only : ∀ x, x ≠ a → f x = none) : xs.filterMap f = [b] := by
  obtain ⟨before, after, rfl⟩ := List.append_of_mem mem
  have apart : ∀ ys : List α, a ∉ ys → ys.filterMap f = [] := fun ys absent =>
    List.filterMap_eq_nil_iff.mpr fun x m => only x fun e => absent (e ▸ m)
  obtain ⟨absentAfter, absentBefore⟩ : a ∉ after ∧ a ∉ before := by
    rw [List.nodup_middle, List.nodup_cons, List.mem_append, not_or] at nodup
    exact ⟨nodup.1.2, nodup.1.1⟩
  rw [List.filterMap_append, List.filterMap_cons, kept, apart before absentBefore, apart after absentAfter]
  rfl

/-- Where no other location that the lane may choose holds a candidate, the lane chooses its bay (R114). -/
theorem scratchChoice_bay {s : Part} {k : LaneId} (any : (s.lane k).run.namedSlot = 0)
    (here : s.isCandidate (s.loc (bay k)) = true)
    (only : ∀ p, p ≠ bay k → s.isCandidate (s.loc p) = true → s.rankOf k p = none) : s.scratchChoice k = some (bay k) := by
  obtain ⟨n, rank, -⟩ := rankOf_bay s k
  unfold Part.scratchChoice Part.lowest
  dsimp only
  rw [filterMap_single (xs := locs) (b := (n, bay k)) (List.nodup_finRange 27) (mem_locs (bay k))]
  · rfl
  · simp [any, here, rank]
  · intro p other
    by_cases candidate : s.isCandidate (s.loc p) = true
    · simp [only p other candidate]
    · simp [candidate]

/-- The run items with the cartridge of label `l` chosen (R114, R124). -/
def Run.choosing (r : Run) (l : Label) (home : Option Nat) : Run :=
  { r with
    namedSlot := 0, chosen := some ⟨l, home, false⟩, ownCapacity := classCapacity (classOf l)
    capacities := (r.nextVolume, classCapacity (classOf l)) :: r.capacities }

/-- The cartridge in the lane's bay chosen: its record OPEN, before the limits are judged again (R114). -/
def Part.choosingBay (s : Part) (k : LaneId) (l : Label) : Part :=
  ((s.setLoc (bay k) { s.loc (bay k) with state := some .opened }).touch .map).setLane k
    { s.lane k with run := (s.lane k).run.choosing l (s.loc (bay k)).home }

theorem chooseScratch_bay {s : Part} {k : LaneId} {l : Label} (choice : s.scratchChoice k = some (bay k))
    (label : (s.loc (bay k)).label = some l) : s.chooseScratch k = (s.choosingBay k l).relimit.enterLabelling k := by
  obtain ⟨n, rank, home⟩ := rankOf_bay s k
  obtain ⟨t, unnamed⟩ : ∃ t, s.modLane k (fun l => { l with run := { l.run with namedSlot := 0 } }) = t := ⟨_, rfl⟩
  have label' : (t.loc (bay k)).label = some l := unnamed ▸ label
  have rank' : t.rankOf k (bay k) = some n := unnamed ▸ rank
  have home' : (if n ≤ 24 then some n else (t.loc (bay k)).home) = (s.loc (bay k)).home := unnamed ▸ home
  unfold Part.chooseScratch
  simp only [choice, unnamed, Option.bind_some, label', rank', home', if_true]
  refine congrArg (fun p : Part => p.relimit.enterLabelling k) ?_
  rw [← label', ← unnamed]
  cases k <;> rfl

/-! ## The limits (R124) -/

/-- The lane with the limit that the capacities give it (R117, R124). -/
def Part.limited (s : Part) (k : LaneId) : Lane := { s.lane k with run := { (s.lane k).run with limit := s.limitOf k } }

theorem twinRun_eq (s : Part) (k : LaneId) : s.twinRun = ((s.lane k).run.isOpen && (s.lane k.other).run.isOpen
    && (s.lane k).run.role != .single && (s.lane k.other).run.role != .single) := by
  cases k
  · rfl
  · simp only [Part.twinRun, LaneId.other]
    rw [Bool.and_comm (s.lane .l1).run.isOpen, Bool.and_right_comm]

theorem setLane_comm (s : Part) (k : LaneId) (l m : Lane) :
    (s.setLane k.other m).setLane k l = (s.setLane k l).setLane k.other m := by
  cases k <;> rfl

/-- The lane once limits are judged again: its limit changes where it has chosen a cartridge (R124). -/
def Part.relimited (s : Part) (k : LaneId) : Lane := if (s.lane k).run.chosen.isSome then s.limited k else s.lane k

theorem relimited_chosen {s : Part} {k : LaneId} (chosen : (s.lane k).run.chosen.isSome = true) : s.relimited k = s.limited k :=
  if_pos chosen

theorem relimited_none {s : Part} {k : LaneId} (none : (s.lane k).run.chosen = none) : s.relimited k = s.lane k :=
  if_neg (by simp [none])

/-- No lane's limit rests on the other lane's. -/
theorem relimited_beside (s : Part) : (s.setLane .l0 (s.relimited .l0)).relimited .l1 = s.relimited .l1 := by
  unfold Part.relimited
  split
  · rfl
  · rw [setLane_lane]

theorem relimit_eq (s : Part) (k : LaneId) : s.relimit = (s.setLane k (s.relimited k)).setLane k.other (s.relimited k.other) := by
  have step : ∀ (t : Part) (j : LaneId), (if (t.lane j).run.chosen.isSome then
      t.modLane j (fun l => { l with run := { l.run with limit := t.limitOf j } }) else t) = t.setLane j (t.relimited j) := by
    intro t j
    unfold Part.relimited
    split
    · rfl
    · exact (setLane_lane t j).symm
  have both : s.relimit = (s.setLane .l0 (s.relimited .l0)).setLane .l1 (s.relimited .l1) := by
    simp only [Part.relimit, Part.setLimits, step, relimited_beside]
  cases k with
  | l0 => exact both
  | l1 => exact both

/-- Outside a twin run the limit is the own capacity (R117). -/
theorem limitOf_single {s : Part} {k : LaneId} (single : s.twinRun = false) : s.limitOf k = (s.lane k).run.ownCapacity := by
  simp [Part.limitOf, single]

/-- In a twin run the limit is the smaller of the own capacity and the other lane's for the volume number (R124). -/
theorem limitOf_twin {s : Part} {k : LaneId} {c : Nat} (twin : s.twinRun = true)
    (known : (s.lane k.other).run.capacities.lookup (s.lane k).volumeNumber = some c) :
    s.limitOf k = min (s.lane k).run.ownCapacity c := by
  simp [Part.limitOf, twin, known]

/-! ## The lane in LABELLING (R115) -/

/-- The lane in LABELLING with fresh volume items for the cartridge it has chosen (R115). -/
def Lane.enteringLabelling (x : Lane) (c : Chosen) : Lane :=
  { x with
    state := .labelling
    pending := some (.label 0)
    volume := some { label := c.label, set := x.run.set, number := x.run.nextVolume, twin := x.run.role == .twin, nextSeq := 1
                     positions := 0, verified := 0, rewrites := [] } }

theorem enterLabelling_chosen {s : Part} {k : LaneId} {c : Chosen} (chosen : (s.lane k).run.chosen = some c) :
    s.enterLabelling k = s.setLane k ((s.lane k).enteringLabelling c) := by
  rw [Part.enterLabelling, chosen]
  rfl

/-- The lane that has chosen the cartridge of label `l` in its bay, with limit `n`, in LABELLING (R114, R115). -/
def Lane.labelling (x : Lane) (l : Label) (home : Option Nat) (n : Nat) : Lane :=
  Lane.enteringLabelling { x with run := { x.run.choosing l home with limit := n } } ⟨l, home, false⟩

/-- The cartridge in the bay chosen and its lane in LABELLING; the other lane's limit follows (R114, R115, R124). -/
theorem chooseScratch_labelling {s : Part} {k : LaneId} {l : Label} (choice : s.scratchChoice k = some (bay k))
    (label : (s.loc (bay k)).label = some l) :
    s.chooseScratch k = (((s.setLoc (bay k) { s.loc (bay k) with state := some .opened }).touch .map).setLane k
      ((s.lane k).labelling l (s.loc (bay k)).home ((s.choosingBay k l).limitOf k))).setLane k.other
      ((s.choosingBay k l).relimited k.other) := by
  have here : (s.choosingBay k l).lane k = { s.lane k with run := (s.lane k).run.choosing l (s.loc (bay k)).home } :=
    lane_setLane_same _ k _
  have limited := relimited_chosen (s := s.choosingBay k l) (k := k) (by rw [here]; rfl)
  rw [chooseScratch_bay choice label, relimit_eq _ k, limited, Part.limited, here, ← setLane_comm,
    enterLabelling_chosen (c := ⟨l, (s.loc (bay k)).home, false⟩) (by rw [lane_setLane_same]; rfl), lane_setLane_same,
    setLane_setLane, setLane_comm]
  refine congrArg (fun p : Part => p.setLane k.other _) ?_
  exact setLane_setLane _ k _ _

/-! ## Runs opened (R113) -/

/-- The run items as APPEND opens them (R113). -/
def Run.opened (role : Role) (set : Nat) : Run := { Run.none with isOpen := true, role := role, set := set, nextVolume := 1 }

/-- The lane with its run opened (R113). -/
def Lane.opening (x : Lane) (role : Role) (set : Nat) : Lane := { x with run := Run.opened role set }

/-- The lane in LABELLING on the cartridge of label `l` in its bay, at the start of its run (R113 to R115). -/
def Part.starting (s : Part) (k : LaneId) (role : Role) (set : Nat) (l : Label) (n : Nat) : Lane :=
  ((s.lane k).opening role set).labelling l (s.loc (bay k)).home n

theorem openRun_eq (s : Part) (k : LaneId) (role : Role) (set : Nat) :
    s.openRun k role set 0 = s.setLane k ((s.lane k).opening role set) := rfl

/-- A SCRATCH cartridge of a valid label that is not held may be chosen (R114). -/
theorem isCandidate_scratch {s : Part} {r : LocRecord} {l : Label} (occupied : r.occ = .occupied) (scratch : r.state = some .scratch)
    (label : r.label = some l) (valid : validLabel l = true) (free : l ∉ s.library.holds) : s.isCandidate r = true := by
  simp [Part.isCandidate, occupied, scratch, label, valid, free]

/-- A run opened on a lane with no other cartridge to choose than the one in its bay is in LABELLING on that (R113 to R115). -/
theorem openRun_chooses {s : Part} {k : LaneId} {l : Label} (role : Role) (set : Nat) (label : (s.loc (bay k)).label = some l)
    (here : s.isCandidate (s.loc (bay k)) = true)
    (only : ∀ p, p ≠ bay k → s.isCandidate (s.loc p) = true → s.rankOf k p = none) :
    let c := (s.openRun k role set 0).choosingBay k l
    (s.openRun k role set 0).chooseScratch k
      = (((s.setLoc (bay k) { s.loc (bay k) with state := some .opened }).setLane k
          (s.starting k role set l (c.limitOf k))).setLane k.other (c.relimited k.other)).touch .map := by
  intro c
  have any : ((s.openRun k role set 0).lane k).run.namedSlot = 0 := by rw [openRun_eq, lane_setLane_same]; rfl
  have choice : (s.openRun k role set 0).scratchChoice k = some (bay k) := scratchChoice_bay any here only
  have opening : (s.openRun k role set 0).lane k = (s.lane k).opening role set := lane_setLane_same s k _
  obtain ⟨n, limit⟩ : ∃ n, c.limitOf k = n := ⟨_, rfl⟩
  obtain ⟨m, other⟩ : ∃ m, c.relimited k.other = m := ⟨_, rfl⟩
  rw [chooseScratch_labelling choice label, opening, limit, other]
  exact congrArg (fun p : Part => (p.setLane k.other m).touch .map)
    (setLane_setLane (s.setLoc (bay k) { s.loc (bay k) with state := some .opened }) k ((s.lane k).opening role set) _)

theorem openRun_choosing_lane (s : Part) (k : LaneId) (role : Role) (set : Nat) (l : Label) :
    ((s.openRun k role set 0).choosingBay k l).lane k
      = { s.lane k with run := (Run.opened role set).choosing l (s.loc (bay k)).home } := by
  rw [Part.choosingBay, lane_setLane_same, openRun_eq, lane_setLane_same]
  rfl

theorem openRun_choosing_other (s : Part) (k : LaneId) (role : Role) (set : Nat) (l : Label) :
    ((s.openRun k role set 0).choosingBay k l).lane k.other = s.lane k.other := by
  rw [Part.choosingBay, lane_setLane_other]
  exact lane_setLane_other s k _

/-- A single run opened on the cartridge of the lane's bay: nothing else changes, and the limit is the capacity (R113 to R117). -/
theorem openRun_single {s : Part} {k : LaneId} {l : Label} (set : Nat) (label : (s.loc (bay k)).label = some l)
    (here : s.isCandidate (s.loc (bay k)) = true)
    (only : ∀ p, p ≠ bay k → s.isCandidate (s.loc p) = true → s.rankOf k p = none)
    (none : (s.lane k.other).run.chosen = none) :
    (s.openRun k .single set 0).chooseScratch k
      = ((s.setLoc (bay k) { s.loc (bay k) with state := some .opened }).setLane k
          (s.starting k .single set l (classCapacity (classOf l)))).touch .map := by
  have lane := openRun_choosing_lane s k .single set l
  have other := openRun_choosing_other s k .single set l
  have single : ((s.openRun k .single set 0).choosingBay k l).twinRun = false := by
    rw [twinRun_eq _ k, lane]
    simp [Run.choosing, Run.opened]
  rw [openRun_chooses .single set label here only, limitOf_single single, lane, relimited_none (by rw [other, none]), other]
  have apart : (((s.setLoc (bay k) { s.loc (bay k) with state := some .opened }).setLane k
      (s.starting k .single set l (classCapacity (classOf l))))).lane k.other = s.lane k.other := lane_setLane_other _ k _
  rw [← apart]
  exact congrArg (fun p : Part => p.touch .map) (setLane_lane _ _)

/-! ## A twin run opened (R113, R124) -/

/-- Limits judged again change nothing of a lane but its run items. -/
theorem relimited_opening (s : Part) (k : LaneId) (role : Role) (set : Nat) :
    (s.relimited k).opening role set = (s.lane k).opening role set := by
  unfold Part.relimited
  split <;> rfl

theorem relimited_volume (s : Part) (k : LaneId) : (s.relimited k).volume = (s.lane k).volume := by
  unfold Part.relimited
  split <;> rfl

/-- Lanes and a record written again where both lanes were written before. -/
theorem lanes_rewritten (s : Part) (k : LaneId) (p : Loc) (r : LocRecord) (a b c d : Lane) :
    ((((((s.setLane k a).setLane k.other b).touch .map).setLoc p r).setLane k.other c).setLane k d).touch .map
      = ((((s.setLane k d).setLoc p r).setLane k.other c).touch .map).touch .map := by
  cases k <;> rfl

/-- The part once the primary run stands on its cartridge, with limit `n`, and the other lane is `x`. -/
def Part.primaryStarted (s : Part) (k : LaneId) (set : Nat) (l : Label) (n : Nat) (x : Lane) : Part :=
  (((s.setLoc (bay k) { s.loc (bay k) with state := some .opened }).setLane k (s.starting k .primary set l n)).setLane k.other x).touch
    .map

theorem primaryStarted_loc (s : Part) {k : LaneId} (set : Nat) (l : Label) (n : Nat) (x : Lane) {p : Loc} (other : p ≠ bay k) : (s.primaryStarted k set l n x).loc p = s.loc p :=
  loc_setLoc_ne s (bay k) p _ other.symm

theorem primaryStarted_lane (s : Part) (k : LaneId) (set : Nat) (l : Label) (n : Nat) (x : Lane) :
    (s.primaryStarted k set l n x).lane k = s.starting k .primary set l n ∧ (s.primaryStarted k set l n x).lane k.other = x := by
  cases k <;> exact ⟨rfl, rfl⟩

/-- The limits of a twin run that starts: each the smaller of the two capacities (R124). -/
theorem twin_limits (s : Part) (k : LaneId) (set : Nat) (l m : Label) (n : Nat) {x : Lane} (volume : x.volume = none) :
    let c := ((s.primaryStarted k set l n x).openRun k.other .twin set 0).choosingBay k.other m
    let limit := min (classCapacity (classOf l)) (classCapacity (classOf m))
    c.limitOf k.other = limit ∧ c.relimited k = s.starting k .primary set l limit := by
  intro c limit
  obtain ⟨primary, other⟩ := primaryStarted_lane s k set l n x
  have twin : c.lane k.other = { x with run := (Run.opened .twin set).choosing m ((s.primaryStarted k set l n x).loc (bay k.other)).home } :=
    (openRun_choosing_lane _ k.other .twin set m).trans (by rw [other])
  have first : c.lane k = s.starting k .primary set l n := by
    have beside := openRun_choosing_other (s.primaryStarted k set l n x) k.other .twin set m
    rw [laneId_other_other, primary] at beside
    exact beside
  have both : c.twinRun = true := by rw [twinRun_eq c k, first, twin]; rfl
  have twinLimit : c.limitOf k.other = limit := by
    rw [limitOf_twin (c := classCapacity (classOf l)) both, twin]
    · exact Nat.min_comm _ _
    · rw [laneId_other_other, first, twin, Lane.volumeNumber, volume]
      rfl
  have firstLimit : c.limitOf k = limit := by
    rw [limitOf_twin (c := classCapacity (classOf m)) both, first]
    · rfl
    · rw [first, twin]
      rfl
  refine ⟨twinLimit, ?_⟩
  rw [relimited_chosen (by rw [first]; rfl), Part.limited, first, firstLimit]
  rfl

/-- Both runs of a twin pair opened on the cartridges of the two bays (R113 to R115, R124). -/
theorem openRun_twin {s : Part} {k : LaneId} {l m : Label} (set : Nat) (label : (s.loc (bay k)).label = some l)
    (label' : (s.loc (bay k.other)).label = some m) (here : s.isCandidate (s.loc (bay k)) = true)
    (there : s.isCandidate (s.loc (bay k.other)) = true) (only : ∀ p, (∀ j, p ≠ bay j) → s.isCandidate (s.loc p) = false)
    (volume : (s.lane k.other).volume = none) :
    let limit := min (classCapacity (classOf l)) (classCapacity (classOf m))
    (((s.openRun k .primary set 0).chooseScratch k).openRun k.other .twin set 0).chooseScratch k.other
      = (((((s.setLoc (bay k) { s.loc (bay k) with state := some .opened }).setLane k (s.starting k .primary set l limit)).setLoc
          (bay k.other) { s.loc (bay k.other) with state := some .opened }).setLane k.other
          (s.starting k.other .twin set m limit)).touch .map).touch .map := by
  intro limit
  have bays : bay k.other ≠ bay k := by cases k <;> decide
  have ranks : ∀ j p, p ≠ bay j → s.isCandidate (s.loc p) = true → s.rankOf j p = none := by
    intro j p apart candidate
    by_cases other : p = bay j.other
    · rw [other, rankOf_other_bay]
    · rw [only p (both_lanes apart other)] at candidate
      cases candidate
  obtain ⟨n, first⟩ : ∃ n, ((s.openRun k .primary set 0).choosingBay k l).limitOf k = n := ⟨_, rfl⟩
  obtain ⟨x, beside⟩ : ∃ x, ((s.openRun k .primary set 0).choosingBay k l).relimited k.other = x := ⟨_, rfl⟩
  have untouched : x.volume = none ∧ x.opening .twin set = (s.lane k.other).opening .twin set := by
    have kept := openRun_choosing_other s k .primary set l
    exact beside ▸ ⟨by rw [relimited_volume, kept, volume], by rw [relimited_opening, kept]⟩
  have primary : (s.openRun k .primary set 0).chooseScratch k = s.primaryStarted k set l n x := by
    rw [openRun_chooses .primary set label here (ranks k), first, beside]
    rfl
  have record := primaryStarted_loc s set l n x bays
  have choices : ∀ p, p ≠ bay k.other → (s.primaryStarted k set l n x).isCandidate ((s.primaryStarted k set l n x).loc p) = true →
      (s.primaryStarted k set l n x).rankOf k.other p = none := by
    intro p apart candidate
    by_cases same : p = bay k
    · have none := rankOf_other_bay (s.primaryStarted k set l n x) k.other
      rwa [laneId_other_other, ← same] at none
    · rw [primaryStarted_loc s set l n x same] at candidate
      exact absurd ((only p (both_lanes same apart)).symm.trans candidate) Bool.false_ne_true
  obtain ⟨limited, relimited⟩ := twin_limits s k set l m n untouched.1
  have starting : (s.primaryStarted k set l n x).starting k.other .twin set m limit = s.starting k.other .twin set m limit := by
    rw [Part.starting, (primaryStarted_lane s k set l n x).2, untouched.2, record]
    rfl
  rw [primary, openRun_chooses .twin set (record ▸ label') (record ▸ there) choices, limited, laneId_other_other, relimited, starting,
    record]
  exact lanes_rewritten _ k _ _ _ _ _ _

/-! ## The directive -/

theorem append_directiveOf (k : LaneId) (slot : Byte) (set : BitVec 16) :
    directiveOf (.append (BitVec.ofNat 8 k.num) slot set)
      = some (0x30, fun s => s.append (BitVec.ofNat 8 k.num) slot set.toNat) := rfl

/-- A directive that the slot takes and that leaves `x` with a section marked by two changes, but for the slot. -/
theorem judges_of_touched_twice {c : Instr} {code : Nat} {f : Part → Judged} (directive : directiveOf c = some (code, f)) {s : State}
    (takes : s.takes code) {x : Part} {r : Result} {d : Nat} (y : Section)
    (judged : f (s.judging code) = (((x.judging code).touch y).touch y, some (r, d))) : Judges c s code r d x :=
  directive_judges c s code f (exec_directiveOf directive s) takes (((x.judging code).touch y).touch y) r d judged rfl

theorem engaged_false {x : Lane} (closed : x.run.isOpen = false) (rests : x.state = .empty ∨ x.state = .idle) : ¬ x.engaged := by
  rintro (opened | ⟨notEmpty, notIdle⟩)
  · rw [closed] at opened
    cases opened
  · exact rests.elim notEmpty notIdle

/-- Settles O37: the checks of `append_cases`, the single run of `openRun_single` and the twin run of `openRun_twin`. -/
theorem appendOpensRunOrRefuses : Obligations.AppendOpensRunOrRefuses := by
  unfold Obligations.AppendOpensRunOrRefuses
  refine ⟨?single, ?twin, ?refused⟩
  case single =>
    intro s k set l takes present nonzero off pool closed rests none occupied scratch label valid free only cap home
    have here := isCandidate_scratch occupied scratch label valid free
    have nowhere : ∀ p, p ≠ bay k → s.isCandidate (s.loc p) = true → s.rankOf k p = Option.none :=
      fun p apart candidate => absurd ((only p apart).symm.trans candidate) Bool.false_ne_true
    obtain ⟨-, -, -, accepted⟩ := append_cases (s := s.judging 0x30) present 0 set.toNat
    have named : set.toNat ≠ 0 := BitVec.toNat_ne_iff_ne.mpr nonzero
    have good : ¬ (set.toNat = 0 ∨ 24 < (0 : Byte).toNat ∨ (s.twin.on = true ∧ k ≠ s.twin.primary)) := by
      simp [named, off]
    have ready : ¬ (s.pool.geometry = Option.none ∨ (s.lane k).engaged ∨ (s.twin.on = true ∧ (s.lane k.other).engaged)) := by
      simp [pool, off, engaged_false closed rests]
    refine judges_of_touched (append_directiveOf k 0 set) takes .map ((accepted good ready rfl).trans ?_)
    rw [if_neg (show ¬ (s.judging 0x30).twin.on = true from Bool.eq_false_iff.mp off),
      openRun_single (s := s.judging 0x30) set.toNat label here nowhere none]
    rfl
  case twin =>
    intro s k set l m takes present nonzero on primary pool _ lanes valid valid' free free' only cap opened
    obtain ⟨closed, -, rests, occupied, scratch, label⟩ := lanes k
    obtain ⟨closed', volume, rests', occupied', scratch', label'⟩ := lanes k.other
    rw [if_pos rfl] at label
    rw [if_neg (laneId_other_ne k)] at label'
    have here := isCandidate_scratch occupied scratch label valid free
    have there := isCandidate_scratch occupied' scratch' label' valid' free'
    obtain ⟨-, -, -, accepted⟩ := append_cases (s := s.judging 0x30) (present k) 0 set.toNat
    have named : set.toNat ≠ 0 := BitVec.toNat_ne_iff_ne.mpr nonzero
    have good : ¬ (set.toNat = 0 ∨ 24 < (0 : Byte).toNat ∨ (s.twin.on = true ∧ k ≠ s.twin.primary)) := by
      simp [named, primary]
    have ready : ¬ (s.pool.geometry = none ∨ (s.lane k).engaged ∨ (s.twin.on = true ∧ (s.lane k.other).engaged)) := by
      simp [pool, engaged_false closed rests, engaged_false closed' rests']
    have started := openRun_twin (s := s.judging 0x30) (k := k) set.toNat label label' here there only volume
    have first : ∀ p, opened p k = (p.setLoc (bay k) { s.loc (bay k) with state := some .opened }).setLane k
        (s.starting k .primary set.toNat l (min (classCapacity (classOf l)) (classCapacity (classOf m)))) := by
      intro p
      simp only [opened, cap, if_pos, if_neg (laneId_other_ne k), ne_eq, not_true_eq_false, decide_false]
      rfl
    have second : ∀ p, opened p k.other = (p.setLoc (bay k.other) { s.loc (bay k.other) with state := some .opened }).setLane k.other
        (s.starting k.other .twin set.toNat m (min (classCapacity (classOf l)) (classCapacity (classOf m)))) := by
      intro p
      simp only [opened, cap, if_pos, ne_eq, laneId_other_ne k, not_false_eq_true, decide_true]
      rfl
    rw [first, second]
    refine judges_of_touched_twice (append_directiveOf k 0 set) takes .map ((accepted good ready rfl).trans ?_)
    rw [if_pos (show (s.judging 0x30).twin.on = true from on), started]
    rfl
  case refused =>
    intro s k slot set takes present c parameter busy state
    have zero : set = 0 ↔ set.toNat = 0 := BitVec.toNat_eq
    obtain ⟨byParameter, byState, byLabel, -⟩ := append_cases (s := s.judging 0x30) present slot set.toNat
    have same : parameter ↔ (set.toNat = 0 ∨ 24 < slot.toNat ∨ (s.twin.on = true ∧ k ≠ s.twin.primary)) := or_congr_left zero
    rw [same]
    refine ⟨fun bad => ?_, fun good bad => ?_, fun good ready named nowhere => ?_⟩
    all_goals refine judges_refused (append_directiveOf k slot set) takes ?_
    · exact byParameter bad
    · exact byState good bad
    · exact byLabel good ready named nowhere

end Sys2Proof.Machine
end
